-- ==== Sys2Proof/Word.lean ====
section
/-! DEFINITION. The word types of the engine and the four-word register file shape.
Every value is unsigned (spec/00_scope.md R7); bit 0 is the least significant bit (R6). -/

namespace Sys2Proof

/-- A 32-bit unsigned word, the width of every register of the algorithm (00_scope.md R4). -/
abbrev Word := BitVec 32

/-- One byte. -/
abbrev Byte := BitVec 8

/-- A 64-bit counter (10_state.md R38, R39). -/
abbrev DWord := BitVec 64

/-- Four words named A, B, C, D in index order 0 to 3: the MD Buffer `H`, the working registers `W`,
the snapshot `SNAP` and the digest `DIG` (10_state.md R20, R21, R23). -/
structure Quad where
  A : Word
  B : Word
  C : Word
  D : Word
  deriving DecidableEq, Repr

end Sys2Proof
end

