-- ==== Sys2Proof/Syntax.lean ====
section
/-! DEFINITION. The command set: one constructor per row of spec/opcode_table.json
(spec/30_encoding.md R82), with the operands of R83. -/

namespace Sys2Proof

/-- The seven commands (30_encoding.md R82). `T` is a one-bit flag and `N` a 6-bit unsigned count
(R83); every other operand of a command is engine state. -/
inductive Instr where
  /-- NOP: nothing (43_commands.md R183). -/
  | nop
  /-- INIT: open a message, with the trace enable `T` (43_commands.md R184). -/
  | init (t : Bool)
  /-- BLOCK: compress the block buffer as a full message block (43_commands.md R185). -/
  | block
  /-- FINAL: pad the tail of `N` bytes, compress, encode (43_commands.md R186). -/
  | final (n : BitVec 6)
  /-- ENCODE: encode the current MD Buffer (43_commands.md R187). -/
  | encode
  /-- TACK: acknowledge the held snapshot (43_commands.md R188). -/
  | tack
  /-- ABORT: return to the reset state (43_commands.md R189). -/
  | abort
  deriving DecidableEq, Repr

end Sys2Proof
end

