-- ==== Sys2Proof/WellFormed.lean ====
section
/-! DEFINITION. Well-formed command words, said as a property of the five fields of the one format
(spec/30_encoding.md R80, R85). The widths of the fields stand in their types, so every `Instr` is
well formed; what can be ill formed is a command word, and each check below refuses one kind. -/

namespace Sys2Proof

/-- The fields of a command word, lowest bits first (30_encoding.md R80). -/
structure CommandFields where
  op : BitVec 4
  t : BitVec 1
  reservedLow : BitVec 3
  n : BitVec 6
  reservedHigh : BitVec 18
  deriving DecidableEq, Repr

/-- The opcode is one of the seven of 30_encoding.md R82. -/
def CommandFields.opcodeLegal (f : CommandFields) : Bool :=
  f.op.toNat ≤ 5 || f.op.toNat == 15

/-- Bits 7:5 and 31:14 are zero (30_encoding.md R80). -/
def CommandFields.reservedZero (f : CommandFields) : Bool :=
  f.reservedLow == 0 && f.reservedHigh == 0

/-- `T = 1` on INIT only (30_encoding.md R82, R85). -/
def CommandFields.traceAllowed (f : CommandFields) : Bool :=
  f.t == 0 || f.op == 1

/-- `N != 0` on FINAL only (30_encoding.md R82, R85). -/
def CommandFields.tailAllowed (f : CommandFields) : Bool :=
  f.n == 0 || f.op == 3

/-- A legal command word (30_encoding.md R85). -/
def CommandFields.wellFormed (f : CommandFields) : Bool :=
  f.opcodeLegal && f.reservedZero && f.traceAllowed && f.tailAllowed

/-- The fields each command is made of (30_encoding.md R82, R83). -/
def Instr.fields : Instr → CommandFields
  | .nop => ⟨0, 0, 0, 0, 0⟩
  | .init t => ⟨1, BitVec.ofBool t, 0, 0, 0⟩
  | .block => ⟨2, 0, 0, 0, 0⟩
  | .final n => ⟨3, 0, 0, n, 0⟩
  | .encode => ⟨4, 0, 0, 0, 0⟩
  | .tack => ⟨5, 0, 0, 0, 0⟩
  | .abort => ⟨15, 0, 0, 0, 0⟩

/-- An instruction is well formed when its fields are a legal command word's. -/
def Instr.wellFormed (i : Instr) : Bool := i.fields.wellFormed

end Sys2Proof
end

