-- ==== Sys2Proof/Decode.lean ====
section
/-! DEFINITION. Decoding and encoding of the 32-bit command word (spec/30_encoding.md R80 to R86).
A command is one word moved by one port write, so there is no byte sequence to fetch: the decoder is
a total function on words and names what it rejects. -/

namespace Sys2Proof

/-- Why a word is no command, in the priority of 60_exceptions.md R228. -/
inductive DecodeError where
  /-- Opcode 0x6 to 0xE (60_exceptions.md R222). -/
  | badOpcode
  /-- A legal opcode with a reserved bit set or a misplaced `T` or `N` (60_exceptions.md R223). -/
  | badField
  deriving DecidableEq, Repr

/-- What the decoder answers: the command, or the reason there is none. -/
inductive Decoded where
  | command (i : Instr)
  | reject (e : DecodeError)
  deriving DecidableEq, Repr

/-- The five fields of a word: OP 3:0, T 4, reserved 7:5, N 13:8, reserved 31:14 (30_encoding.md R80). -/
def fieldsOfWord (v : Word) : CommandFields where
  op := v.extractLsb' 0 4
  t := v.extractLsb' 4 1
  reservedLow := v.extractLsb' 5 3
  n := v.extractLsb' 8 6
  reservedHigh := v.extractLsb' 14 18

/-- The command an opcode with its operands stands for; the reserved opcodes have none
(30_encoding.md R82). -/
def commandOfOpcode (op : BitVec 4) (t : BitVec 1) (n : BitVec 6) : Option Instr :=
  match op.toNat with
  | 0 => some .nop
  | 1 => some (.init (t == 1))
  | 2 => some .block
  | 3 => some (.final n)
  | 4 => some .encode
  | 5 => some .tack
  | 15 => some .abort
  | _ => none

/-- The four checks in the order of 30_encoding.md R84. -/
def decodeFields (f : CommandFields) : Decoded :=
  match commandOfOpcode f.op f.t f.n with
  | none => .reject .badOpcode
  | some i =>
    if f.reservedLow ≠ 0 ∨ f.reservedHigh ≠ 0 then .reject .badField
    else if f.t = 1 ∧ f.op ≠ 1 then .reject .badField
    else if f.n ≠ 0 ∧ f.op ≠ 3 then .reject .badField
    else .command i

/-- Decoding of a command word (30_encoding.md R84). -/
def decodeWord (v : Word) : Decoded := decodeFields (fieldsOfWord v)

/-- The word of each command, from the encodings of 43_commands.md R183 to R189. -/
def encode : Instr → Word
  | .nop => 0x00000000#32
  | .init t => 0x00000001#32 ||| (BitVec.ofBool t).setWidth 32 <<< 4
  | .block => 0x00000002#32
  | .final n => 0x00000003#32 ||| n.setWidth 32 <<< 8
  | .encode => 0x00000004#32
  | .tack => 0x00000005#32
  | .abort => 0x0000000F#32

/-- The instruction the decoder reads from a table word of `nbits` bits, the bits above being zero.
A command is one 32-bit word (30_encoding.md R86), so a longer word is no command. -/
def decodeTableWord (nbits w : Nat) : Option Instr :=
  if w % 2 ^ nbits < 2 ^ 32 then
    match decodeWord (BitVec.ofNat 32 (w % 2 ^ nbits)) with
    | .command i => some i
    | .reject _ => none
  else none

end Sys2Proof
end

