-- ==== Sys2Proof/Machine/Bits.lean ====
section
/-! DEFINITION. Byte order, rotation and the shapes of the small register files
(spec/00_scope.md R6 to R10). -/

namespace Sys2Proof

/-- Byte `j` of a word, `w[8j+7:8j]` (00_scope.md R6). -/
def byteOf (w : Word) (j : Nat) : Byte := w.extractLsb' (8 * j) 8

/-- Byte `j` of a 64-bit value, for `le64` (00_scope.md R10). -/
def byteOf64 (v : DWord) (j : Nat) : Byte := v.extractLsb' (8 * j) 8

/-- `le32(b0, b1, b2, b3)`: `b0` in bits 7:0 (00_scope.md R10). -/
def le32 (b0 b1 b2 b3 : Byte) : Word := b3 ++ b2 ++ b1 ++ b0

/-- `be32(b0, b1, b2, b3)`: `b0` in bits 31:24 (00_scope.md R10). -/
def be32 (b0 b1 b2 b3 : Byte) : Word := b0 ++ b1 ++ b2 ++ b3

/-- `bswap32(w)`: the four bytes of `w` in the opposite order (00_scope.md R10). -/
def bswap32 (w : Word) : Word := be32 (byteOf w 0) (byteOf w 1) (byteOf w 2) (byteOf w 3)

/-- `le64(v)`: the 8 bytes of `v`, least significant first (00_scope.md R10). -/
def le64 (v : DWord) : List Byte := (List.range 8).map (byteOf64 v)

/-- Bits 31:0 of a 64-bit value (20_memory.md R59). -/
def lowHalf (v : DWord) : Word := v.extractLsb' 0 32

/-- Bits 63:32 of a 64-bit value (20_memory.md R59). -/
def highHalf (v : DWord) : Word := v.extractLsb' 32 32

/-- `rotl32(x, s)` for `1 <= s <= 31`: circular over 32 bits (00_scope.md R9). -/
def rotl32 (x : Word) (s : Nat) : Word := (x <<< s) ||| (x >>> (32 - s))

/-- Element `k` of a four-word register file, in the order A, B, C, D (10_state.md R21). -/
def Quad.get (q : Quad) (k : Nat) : Word :=
  match k with
  | 0 => q.A
  | 1 => q.B
  | 2 => q.C
  | _ => q.D

/-- `f` on each of the four words. -/
def Quad.map (f : Word → Word) (q : Quad) : Quad := ⟨f q.A, f q.B, f q.C, f q.D⟩

/-- The four sums modulo 2^32 (00_scope.md R8). -/
def Quad.add (p q : Quad) : Quad := ⟨p.A + q.A, p.B + q.B, p.C + q.C, p.D + q.D⟩

/-- Four zero words. -/
def Quad.zero : Quad := ⟨0, 0, 0, 0⟩

/-- The 16-word file whose element `k` is `f k`. -/
def words16 (f : Nat → Word) : Vector Word 16 :=
  #v[f 0, f 1, f 2, f 3, f 4, f 5, f 6, f 7, f 8, f 9, f 10, f 11, f 12, f 13, f 14, f 15]

/-- The 8-word file whose element `r` is `f r`. -/
def words8 (f : Nat → Word) : Vector Word 8 :=
  #v[f 0, f 1, f 2, f 3, f 4, f 5, f 6, f 7]

/-- Element `k` of a register file; an index outside it names no element and reads 0, which no rule
ever does. -/
def wordAt {n : Nat} (file : Vector Word n) (k : Nat) : Word :=
  if h : k < n then file[k] else 0

end Sys2Proof
end

