-- ==== Sys2Proof/Machine/Rom.lean ====
section
/-! DEFINITION. The constants fixed by the hardware: the IV, the additive constant ROM, the rotation
ROM and the ID word (spec/10_state.md R24, R26, R27, R34; spec/41_block_processor.md R122, R123). -/

namespace Sys2Proof

/-- The IV: the MD Buffer at the start of every message (10_state.md R24). -/
def iv : Quad := ⟨0x67452301#32, 0xefcdab89#32, 0x98badcfe#32, 0x10325476#32⟩

/-- The value the ID location reads (10_state.md R34). -/
def idWord : Word := 0x4D443501#32

/-- Entries 0 to 15 of the additive constant table (41_block_processor.md R122). -/
def kRound1 : Vector Word 16 :=
  #v[
     0xd76aa478#32, 0xe8c7b756#32, 0x242070db#32, 0xc1bdceee#32,
     0xf57c0faf#32, 0x4787c62a#32, 0xa8304613#32, 0xfd469501#32,
     0x698098d8#32, 0x8b44f7af#32, 0xffff5bb1#32, 0x895cd7be#32,
     0x6b901122#32, 0xfd987193#32, 0xa679438e#32, 0x49b40821#32]

/-- Entries 16 to 31 of the additive constant table (41_block_processor.md R122). -/
def kRound2 : Vector Word 16 :=
  #v[
     0xf61e2562#32, 0xc040b340#32, 0x265e5a51#32, 0xe9b6c7aa#32,
     0xd62f105d#32, 0x02441453#32, 0xd8a1e681#32, 0xe7d3fbc8#32,
     0x21e1cde6#32, 0xc33707d6#32, 0xf4d50d87#32, 0x455a14ed#32,
     0xa9e3e905#32, 0xfcefa3f8#32, 0x676f02d9#32, 0x8d2a4c8a#32]

/-- Entries 32 to 47 of the additive constant table (41_block_processor.md R122). -/
def kRound3 : Vector Word 16 :=
  #v[
     0xfffa3942#32, 0x8771f681#32, 0x6d9d6122#32, 0xfde5380c#32,
     0xa4beea44#32, 0x4bdecfa9#32, 0xf6bb4b60#32, 0xbebfbc70#32,
     0x289b7ec6#32, 0xeaa127fa#32, 0xd4ef3085#32, 0x04881d05#32,
     0xd9d4d039#32, 0xe6db99e5#32, 0x1fa27cf8#32, 0xc4ac5665#32]

/-- Entries 48 to 63 of the additive constant table (41_block_processor.md R122). -/
def kRound4 : Vector Word 16 :=
  #v[
     0xf4292244#32, 0x432aff97#32, 0xab9423a7#32, 0xfc93a039#32,
     0x655b59c3#32, 0x8f0ccc92#32, 0xffeff47d#32, 0x85845dd1#32,
     0x6fa87e4f#32, 0xfe2ce6e0#32, 0xa3014314#32, 0x4e0811a1#32,
     0xf7537e82#32, 0xbd3af235#32, 0x2ad7d2bb#32, 0xeb86d391#32]

/-- The additive constant ROM `K[0..63]` (10_state.md R26): round `r` holds entries `16 r` to
`16 r + 15`. -/
def kRom : Vector Word 64 := kRound1 ++ kRound2 ++ kRound3 ++ kRound4

/-- A round's sixteen amounts: its pattern of four, repeated four times in the listed order
(41_block_processor.md R123; 91_not_in_source.md N4). -/
def repeatFour (a b c d : BitVec 5) : Vector (BitVec 5) 16 :=
  #v[a, b, c, d, a, b, c, d, a, b, c, d, a, b, c, d]

/-- The rotation ROM `S[0..63]` (10_state.md R27, 41_block_processor.md R123). -/
def sRom : Vector (BitVec 5) 64 :=
  repeatFour 7 12 17 22 ++ repeatFour 5 9 14 20 ++ repeatFour 4 11 16 23 ++ repeatFour 6 10 15 21

end Sys2Proof
end

