-- ==== Sys2Proof/Machine/Compress.lean ====
section
/-! DEFINITION. The Block Processor's pure functions: the rounds, the step and one block
(spec/41_block_processor.md R120 to R132). The two tables are arguments, because the engine reads
them from its ROMs. -/

namespace Sys2Proof.Machine

open Sys2Proof

/-- The four round kinds (41_block_processor.md R121). -/
inductive Round where
  | first
  | second
  | third
  | fourth
  deriving DecidableEq, Repr

/-- Step `i` belongs to round `i div 16` (41_block_processor.md R120). -/
def roundOf (i : BitVec 6) : Round :=
  match i.toNat / 16 with
  | 0 => .first
  | 1 => .second
  | 2 => .third
  | _ => .fourth

/-- The mixing function of a round (41_block_processor.md R124 to R128). -/
def mix (r : Round) (b c d : Word) : Word :=
  match r with
  | .first => (b &&& c) ||| (~~~b &&& d)
  | .second => (d &&& b) ||| (~~~d &&& c)
  | .third => b ^^^ c ^^^ d
  | .fourth => c ^^^ (b ||| ~~~d)

/-- The message-word index of step `i` in round `r` (41_block_processor.md R129). -/
def wordIndex (r : Round) (i : Nat) : Nat :=
  match r with
  | .first => i % 16
  | .second => (5 * i + 1) % 16
  | .third => (3 * i + 5) % 16
  | .fourth => (7 * i) % 16

/-- The sum that is rotated in step `i` (41_block_processor.md R131). -/
def stepSum (K : Vector Word 64) (i : BitVec 6) (w : Quad) (X : Vector Word 16) : Word :=
  w.A + mix (roundOf i) w.B w.C w.D + wordAt K i.toNat + wordAt X (wordIndex (roundOf i) i.toNat)

/-- The rotation amount of step `i` (41_block_processor.md R123). -/
def rotAmount (S : Vector (BitVec 5) 64) (i : BitVec 6) : Nat := (S[i.toNat]'i.isLt).toNat

/-- Step `i` on the working registers and the block words (41_block_processor.md R131). -/
def stepFn (K : Vector Word 64) (S : Vector (BitVec 5) 64) (i : BitVec 6) (w : Quad)
    (X : Vector Word 16) : Quad where
  A := w.D
  B := w.B + rotl32 (stepSum K i w X) (rotAmount S i)
  C := w.B
  D := w.C

/-- The working registers after the first `n` steps of a block that started from `h`
(41_block_processor.md R132). -/
def stepsUpTo (K : Vector Word 64) (S : Vector (BitVec 5) 64) (h : Quad) (X : Vector Word 16) :
    Nat → Quad
  | 0 => h
  | n + 1 => stepFn K S (BitVec.ofNat 6 n) (stepsUpTo K S h X n) X

/-- One block: 64 steps and the feed-forward (41_block_processor.md R132). -/
def compressFn (K : Vector Word 64) (S : Vector (BitVec 5) 64) (h : Quad) (X : Vector Word 16) : Quad :=
  h.add (stepsUpTo K S h X 64)

/-- The block's 64 trace entries in step order (41_block_processor.md R132). -/
def blockTrace (K : Vector Word 64) (S : Vector (BitVec 5) 64) (h : Quad) (X : Vector Word 16) :
    List Quad :=
  (List.range 64).map fun n => stepsUpTo K S h X (n + 1)

end Sys2Proof.Machine
end

