-- ==== Sys2Proof/Machine/Encoder.lean ====
section
/-! DEFINITION. The Digest Encoder: the document's encoding and its presentation in the DIG and HEX
registers (spec/42_digest_encoder.md R160 to R164). -/

namespace Sys2Proof.Machine

open Sys2Proof

/-- Digest byte `d[m]`, `m` in 0..15: A's bytes least significant first, then B's, C's, D's
(42_digest_encoder.md R160). -/
def digestByte (h : Quad) (m : Nat) : Byte := byteOf (h.get (m / 4)) (m % 4)

/-- The lowercase ASCII character of a hex digit (42_digest_encoder.md R162; log 20). -/
def hexDigit (v : BitVec 4) : Byte :=
  if v.toNat ≤ 9 then 0x30#8 + v.setWidth 8 else 0x61#8 + (v.setWidth 8 - 10#8)

/-- Character `s[c]`, `c` in 0..31: the high digit of a byte before its low digit
(42_digest_encoder.md R161). -/
def hexChar (h : Quad) (c : Nat) : Byte :=
  let d := digestByte h (c / 2)
  if c % 2 = 0 then hexDigit (d.extractLsb' 4 4) else hexDigit (d.extractLsb' 0 4)

/-- The document's `encode`: the 32 characters of the digest (42_digest_encoder.md R161). -/
def hexString (h : Quad) : List Byte := (List.range 32).map (hexChar h)

/-- The DIG registers: `DIG[k] = bswap32(H[k])` (42_digest_encoder.md R163). -/
def digWords (h : Quad) : Quad := h.map bswap32

/-- The HEX registers: character `4r + j` in byte `j` of `HEX[r]` (42_digest_encoder.md R164). -/
def hexWords (h : Quad) : Vector Word 8 :=
  words8 fun r =>
    le32 (hexChar h (4 * r)) (hexChar h (4 * r + 1)) (hexChar h (4 * r + 2)) (hexChar h (4 * r + 3))

end Sys2Proof.Machine
end

