-- ==== Sys2Proof/Machine/State.lean ====
section
/-! DEFINITION. The state of the engine (spec/10_state.md R20), the turns still to come, the reasons a
step can stop, and the state after reset (R43). -/

namespace Sys2Proof.Machine

open Sys2Proof

/-- The sequencer's five states (10_state.md R28). The values 5, 6 and 7 are never held (log 10). -/
inductive SeqState where
  | idle
  | ready
  | busy
  | done
  | error
  deriving DecidableEq, Repr

/-- The error codes (60_exceptions.md R221). The codes 7 to 15 are never raised (log 10). -/
inductive ErrCode where
  | none
  | badOpcode
  | badField
  | badState
  | writeBusy
  | noSnapshot
  | badWrite
  deriving DecidableEq, Repr

/-- One turn of the interleaving of 20_memory.md R63: who moves next, and with what (log 1). -/
inductive Turn where
  /-- The engine agent: one engine step if one is enabled (43_commands.md R200; log 3). -/
  | engine
  /-- The host: `MemRead(idx, 4)` (20_memory.md R51, R60). -/
  | read (idx : BitVec 6)
  /-- The host: `MemWrite(idx, 4, v)` (20_memory.md R51, R61). -/
  | write (idx : BitVec 6) (v : Word)
  /-- A byte-addressed host reads `size` bytes at `addr` (20_memory.md R52; log 5). -/
  | busRead (addr size : Nat)
  /-- A byte-addressed host writes `size` bytes, the value `v`, at `addr` (20_memory.md R52; log 5). -/
  | busWrite (addr size : Nat) (v : Word)
  /-- The reset input (70_reset_and_hazards.md R250, R251; log 12). -/
  | reset
  deriving DecidableEq, Repr

/-- What the port returned to one read (20_memory.md R51): the location and its value (log 4). -/
structure Reply where
  idx : BitVec 6
  value : Word
  deriving DecidableEq, Repr

/-- The engine's architectural state, under the names of 10_state.md R20, then the two fields of the
model's own. -/
structure State where
  /-- MD Buffer (R21, R22). -/
  H : Quad
  /-- Working registers (R23). -/
  W : Quad
  /-- Block buffer (R25). -/
  M : Vector Word 16
  /-- Additive constant ROM (R26; log 7). -/
  K : Vector Word 64
  /-- Rotation ROM (R27; log 7). -/
  S : Vector (BitVec 5) 64
  /-- Sequencer state (R28). -/
  STATE : SeqState
  /-- Index of the next step within the block (R29). -/
  I : BitVec 6
  /-- The operation in progress is FINAL (R30). -/
  FIN : Bool
  /-- A second padding block is still to be compressed (R30). -/
  PEND2 : Bool
  /-- Trace enable (R31). -/
  TEN : Bool
  /-- A snapshot is held and not yet acknowledged (R31). -/
  TV : Bool
  /-- The digest registers hold the encoding of the current `H` (R31). -/
  DV : Bool
  /-- Code of the error that entered ERROR (R32). -/
  ERR_CODE : ErrCode
  /-- Last step trace entry (R36). -/
  SNAP : Quad
  /-- Its 1-based position in the message's trace (R36). -/
  SNAP_IDX : Word
  /-- Steps since INIT, modulo 2^32 (R37). -/
  STEPCNT : Word
  /-- Message bits taken since INIT, modulo 2^64 (R38). -/
  BITLEN : DWord
  /-- Blocks compressed since INIT, modulo 2^64 (R39). -/
  BLKCNT : DWord
  /-- Digest bytes, packed big-endian (R40). -/
  DIG : Quad
  /-- Hex characters of the digest (R41). -/
  HEX : Vector Word 8
  /-- MODEL'S OWN: the turns still to come, the next one first (log 1). -/
  agenda : List Turn
  /-- MODEL'S OWN: what the reads so far returned, oldest first (log 4). -/
  replies : List Reply
  deriving DecidableEq, Repr

/-- Reasons the machine could stop with a fault. There is none: every misuse the spec describes is an
error, which is a next state (60_exceptions.md R220, R230), and engine steps never fail (log 18). -/
inductive Fault where
  deriving DecidableEq, Repr

/-- Reasons there is no transition. -/
inductive Refusal where
  /-- Raised by an arm of `exec` for a command that has no meaning yet; no arm raises it. Safe. -/
  | notModelled (mnemonic : String)
  /-- Raised by `Port.lean` for a byte-addressed access that is no port transaction: not 4 bytes wide,
  or not at `BASE + 4 * idx` with `idx` in 0..63 (20_memory.md R52, 93_implementation_defined.md U4).
  Safe: the model admits no transition where the hardware has none (log 5). -/
  | notAPortTransaction
  deriving DecidableEq, Repr

/-- The three outcomes over this machine's state. -/
abbrev Result := Host.Outcome State Fault Refusal

/-- The state after reset (10_state.md R43, 70_reset_and_hazards.md R250), with no turn to come and no
reply given (log 19). -/
def State.reset : State where
  H := iv
  W := Quad.zero
  M := words16 fun _ => 0
  K := kRom
  S := sRom
  STATE := .idle
  I := 0
  FIN := false
  PEND2 := false
  TEN := false
  TV := false
  DV := false
  ERR_CODE := .none
  SNAP := Quad.zero
  SNAP_IDX := 0
  STEPCNT := 0
  BITLEN := 0
  BLKCNT := 0
  DIG := Quad.zero
  HEX := words8 fun _ => 0
  agenda := []
  replies := []

end Sys2Proof.Machine
end

