-- ==== Sys2Proof/Machine/Flags.lean ====
section
/-! DEFINITION. The flags as software sees them: the numbers of the sequencer states and error codes,
and the STATUS word (spec/10_state.md R28, R31 to R33; spec/60_exceptions.md R221). No flag is a side
effect of arithmetic (R31): each is written by the operation that the table of R31 names. -/

namespace Sys2Proof.Machine

open Sys2Proof

/-- The value of the STATE field (10_state.md R28). -/
def SeqState.code : SeqState → BitVec 3
  | .idle => 0
  | .ready => 1
  | .busy => 2
  | .done => 3
  | .error => 4

/-- The value of the ERR field (60_exceptions.md R221). -/
def ErrCode.code : ErrCode → BitVec 4
  | .none => 0
  | .badOpcode => 1
  | .badField => 2
  | .badState => 3
  | .writeBusy => 4
  | .noSnapshot => 5
  | .badWrite => 6

/-- STATUS, assembled from bit 31 down: reserved, ERR, reserved, STEP, PEND2, FIN, TEN, TV, DV, STATE
(10_state.md R33). -/
def statusWord (s : State) : Word :=
  0#12 ++ s.ERR_CODE.code ++ 0#2 ++ s.I ++ BitVec.ofBool s.PEND2 ++ BitVec.ofBool s.FIN ++
    BitVec.ofBool s.TEN ++ BitVec.ofBool s.TV ++ BitVec.ofBool s.DV ++ s.STATE.code

/-- The engine has a step: BUSY and no snapshot holds it (43_commands.md R200). -/
def stepEnabled (s : State) : Bool := s.STATE = .busy && !(s.TEN && s.TV)

end Sys2Proof.Machine
end

