-- ==== Sys2Proof/Config.lean ====
section
/-! DEFINITION. What the spec leaves to an implementation as a parameter (spec/00_scope.md R5).
Of the three open parameters only `BASE` can be seen in a transaction; `STEP_LATENCY` and `HOST_BUS`
are time and signals, which the model does not have (log 6). -/

namespace Sys2Proof

/-- The open parameter `BASE` divided by 256: any natural number (00_scope.md R5, 20_memory.md R52;
93_implementation_defined.md U3; log 5). It has no body, so no proof can rest on a value of it. -/
opaque Config.baseBlock : Nat

end Sys2Proof
end

