-- ==== Sys2Proof/Machine/Operands.lean ====
section
/-! DEFINITION. The operand forms: the bytes of the block buffer, the bits a command counts, and the
word index a byte address stands for (spec/20_memory.md R52, R56; spec/30_encoding.md R83). -/

namespace Sys2Proof.Machine

open Sys2Proof

/-- Byte `j` (0..63) of a block held as 16 little-endian words (20_memory.md R56). -/
def blockByte (M : Vector Word 16) (j : Nat) : Byte := byteOf (wordAt M (j / 4)) (j % 4)

/-- The block whose byte `j` is `f j` (20_memory.md R56). -/
def blockOfBytes (f : Nat → Byte) : Vector Word 16 :=
  words16 fun k => le32 (f (4 * k)) (f (4 * k + 1)) (f (4 * k + 2)) (f (4 * k + 3))

/-- Element `k` of the block buffer replaced by `v` (43_commands.md R190). -/
def setWord (M : Vector Word 16) (k : Nat) (v : Word) : Vector Word 16 := M.setIfInBounds k v

/-- The message bits of a BLOCK (43_commands.md R185). -/
def blockBits : DWord := 512#64

/-- The message bits of an `N`-byte tail, `8 * N` with `N` zero-extended (30_encoding.md R83). -/
def tailBits (n : BitVec 6) : DWord := 8#64 * n.setWidth 64

/-- `BASE`, the byte address of word index 0: a multiple of 256 (20_memory.md R52; log 5). -/
def portBase : Nat := 256 * Config.baseBlock

/-- The word index a byte-addressed access of `size` bytes at `addr` stands for: `idx` when `size` is 4
and `addr` is `BASE + 4 * idx`; no port transaction otherwise (20_memory.md R52). -/
def portIndexOf (addr size : Nat) : Option (BitVec 6) :=
  if size = 4 ∧ portBase ≤ addr ∧ addr < portBase + 256 ∧ (addr - portBase) % 4 = 0 then
    some (BitVec.ofNat 6 ((addr - portBase) / 4))
  else none

end Sys2Proof.Machine
end

