-- ==== Sys2Proof/Machine/Padder.lean ====
section
/-! DEFINITION. The Padder: the document's `pad` on a whole message, and the blocks the engine builds
in its buffer (spec/40_padder.md R100 to R106). -/

namespace Sys2Proof.Machine

open Sys2Proof

/-- Zero bytes appended until the length is 56 modulo 64 (40_padder.md R100). The loop ends within 63
rounds (R103), so 64 of fuel never run out (log 14). -/
def zeroFill : Nat → List Byte → List Byte
  | 0, out => out
  | fuel + 1, out => if out.length % 64 ≠ 56 then zeroFill fuel (out ++ [0x00#8]) else out

/-- The document's `pad` (40_padder.md R100). -/
def pad (message : List Byte) : List Byte :=
  zeroFill 64 (message ++ [0x80#8]) ++ le64 (BitVec.ofNat 64 (8 * message.length))

/-- A block with the length field in its last eight bytes (20_memory.md R57). -/
def withLength (M : Vector Word 16) (bits : DWord) : Vector Word 16 :=
  setWord (setWord M 14 (lowHalf bits)) 15 (highHalf bits)

/-- The first `n` bytes kept, `0x80` at byte `n`, zeros above (40_padder.md R104). -/
def markTail (M : Vector Word 16) (n : Nat) : Vector Word 16 :=
  blockOfBytes fun j => if j < n then blockByte M j else if j = n then 0x80#8 else 0x00#8

/-- `N <= 55`: the padding fits in the block of the tail (40_padder.md R104). -/
def fitsOneBlock (n : BitVec 6) : Bool := n.toNat ≤ 55

/-- The block buffer after `pad_tail(N)` (40_padder.md R104). -/
def paddedTail (M : Vector Word 16) (n : BitVec 6) (bits : DWord) : Vector Word 16 :=
  if fitsOneBlock n then withLength (markTail M n.toNat) bits else markTail M n.toNat

/-- The second padding block: 56 zero bytes and the length field (40_padder.md R106). -/
def secondPadBlock (bits : DWord) : Vector Word 16 := withLength (words16 fun _ => 0) bits

end Sys2Proof.Machine
end

