-- ==== Sys2Proof/Machine/Ops.lean ====
section
/-! DEFINITION. The shared operations over the state: raising an error and recovering from it, clearing
a message, block start and completion, padding, snapshot, encoding, and the guard every command
stands under (spec/43_commands.md R180 to R182; spec/60_exceptions.md R230 to R232). -/

namespace Sys2Proof.Machine

open Sys2Proof

/-- `raise Error(code)`: the only entry to the ERROR state. Nothing else changes
(60_exceptions.md R230). -/
def raiseError (code : ErrCode) (s : State) : State :=
  { s with STATE := .error, ERR_CODE := code }

/-- `clear_message_state()`: everything but `STATE` and `TEN`, which it leaves to its caller, and the
ROMs (43_commands.md R181). -/
def clearMessageState (s : State) : State :=
  { s with
    H := iv, W := Quad.zero, M := words16 fun _ => 0
    SNAP := Quad.zero, SNAP_IDX := 0, STEPCNT := 0
    BITLEN := 0, BLKCNT := 0
    DIG := Quad.zero, HEX := words8 fun _ => 0
    I := 0, FIN := false, PEND2 := false, TV := false, DV := false, ERR_CODE := .none }

/-- The effect of reset and of ABORT, the two ways out of ERROR (43_commands.md R189,
60_exceptions.md R232, 70_reset_and_hazards.md R250). -/
def resetEffect (s : State) : State :=
  { clearMessageState s with TEN := false, STATE := .idle }

/-- `start_block()` (41_block_processor.md R133). -/
def startBlock (s : State) : State := { s with W := s.H, I := 0 }

/-- `finish_block()`: the feed-forward (41_block_processor.md R134). -/
def finishBlock (s : State) : State :=
  { s with H := s.H.add s.W, BLKCNT := s.BLKCNT + 1, I := 0 }

/-- `capture_snapshot()` (41_block_processor.md R135). -/
def captureSnapshot (s : State) : State :=
  { s with SNAP := s.W, SNAP_IDX := s.STEPCNT, TV := true }

/-- `pad_tail(N)` (40_padder.md R104). -/
def padTail (n : BitVec 6) (s : State) : State :=
  { s with M := paddedTail s.M n s.BITLEN, PEND2 := !fitsOneBlock n }

/-- `load_pad2()` (40_padder.md R106). -/
def loadPad2 (s : State) : State := { s with M := secondPadBlock s.BITLEN, PEND2 := false }

/-- `encode_action()`: reads only `H`, writes only `DIG`, `HEX` and `DV` (42_digest_encoder.md R165). -/
def encodeAction (s : State) : State :=
  { s with DIG := digWords s.H, HEX := hexWords s.H, DV := true }

/-- `write_M(k, v)` outside ERROR (43_commands.md R190). -/
def writeM (k : Nat) (v : Word) (s : State) : State :=
  if s.STATE = .busy then raiseError .writeBusy s else { s with M := setWord s.M k v }

/-- The guard of every command: ignored in ERROR (60_exceptions.md R231); performed where `allowed`
(43_commands.md R182); the error `code` otherwise. It never waits (R180). -/
def command (allowed : Bool) (code : ErrCode) (effect : State → State) (s : State) : Result :=
  if s.STATE = .error then .next s
  else if allowed then .next (effect s)
  else .next (raiseError code s)

end Sys2Proof.Machine
end

