-- ==== Sys2Proof/Machine/Control.lean ====
section
/-! DEFINITION. The control commands: NOP, INIT, TACK, ABORT (spec/43_commands.md R183, R184, R188,
R189). -/

namespace Sys2Proof.Machine

open Sys2Proof

/-- NOP: nothing, in every state (43_commands.md R183). -/
def execNop (s : State) : Result := command true .none id s

/-- INIT: a fresh message, with the trace enable; not in BUSY (43_commands.md R184). -/
def execInit (t : Bool) (s : State) : Result :=
  command (s.STATE ≠ .busy) .badState
    (fun s => { clearMessageState s with TEN := t, STATE := .ready }) s

/-- TACK: lifts the trace hold; needs a held snapshot (43_commands.md R188). -/
def execTack (s : State) : Result :=
  command s.TV .noSnapshot (fun s => { s with TV := false }) s

/-- ABORT: the reset state, from every state, ERROR among them (43_commands.md R189). -/
def execAbort (s : State) : Result := .next (resetEffect s)

end Sys2Proof.Machine
end

