-- ==== Sys2Proof/Machine/Digest.lean ====
section
/-! DEFINITION. The command of the Digest Encoder: ENCODE (spec/43_commands.md R187). -/

namespace Sys2Proof.Machine

open Sys2Proof

/-- ENCODE: encodes the current MD Buffer; in READY and DONE (43_commands.md R187). -/
def execEncode (s : State) : Result :=
  command (s.STATE = .ready || s.STATE = .done) .badState encodeAction s

end Sys2Proof.Machine
end

