-- ==== Sys2Proof/Machine/Process.lean ====
section
/-! DEFINITION. The commands that start an operation: BLOCK and FINAL (spec/43_commands.md R185,
R186). The 64 or 128 engine steps that follow are transitions of their own (R180). -/

namespace Sys2Proof.Machine

open Sys2Proof

/-- BLOCK: counts 512 bits and starts the block; only in READY (43_commands.md R185). -/
def execBlock (s : State) : Result :=
  command (s.STATE = .ready) .badState
    (fun s =>
      { startBlock { s with BITLEN := s.BITLEN + blockBits, FIN := false, PEND2 := false, DV := false } with
        STATE := .busy }) s

/-- FINAL: counts the tail's bits, pads the buffer and starts the block; only in READY
(43_commands.md R186). -/
def execFinal (n : BitVec 6) (s : State) : Result :=
  command (s.STATE = .ready) .badState
    (fun s =>
      { startBlock { padTail n { s with BITLEN := s.BITLEN + tailBits n } with FIN := true, DV := false } with
        STATE := .busy }) s

end Sys2Proof.Machine
end

