-- ==== Sys2Proof/Machine/Dispatch.lean ====
section
/-! DEFINITION. One arm per command (spec/30_encoding.md R82). -/

namespace Sys2Proof.Machine

open Sys2Proof

/-- The transition of a decoded command (spec/43_commands.md R180). -/
def exec (i : Instr) (s : State) : Host.Outcome State Fault Refusal :=
  match i with
  | .nop => Sys2Proof.Machine.execNop s
  | .init t => Sys2Proof.Machine.execInit t s
  | .block => Sys2Proof.Machine.execBlock s
  | .final n => Sys2Proof.Machine.execFinal n s
  | .encode => Sys2Proof.Machine.execEncode s
  | .tack => Sys2Proof.Machine.execTack s
  | .abort => Sys2Proof.Machine.execAbort s

end Sys2Proof.Machine
end

