-- ==== Sys2Proof/Machine/Engine.lean ====
section
/-! DEFINITION. The engine agent's own transition (spec/43_commands.md R200 to R205). -/

namespace Sys2Proof.Machine

open Sys2Proof

/-- The first three lines of `engine_step()`: the step function on `W`, the step count and, with
tracing on, the snapshot of the new `W` (43_commands.md R201). -/
def advanceStep (s : State) : State :=
  let t := { s with W := stepFn s.K s.S s.I s.W s.M, STEPCNT := s.STEPCNT + 1 }
  if s.TEN then captureSnapshot t else t

/-- Completion of a BLOCK operation (43_commands.md R202). -/
def completeBlock (s : State) : State := { s with STATE := .ready }

/-- Completion of the first of two FINAL blocks (43_commands.md R203). -/
def nextPadBlock (s : State) : State := startBlock (loadPad2 s)

/-- Completion of the last FINAL block (43_commands.md R204). -/
def completeFinal (s : State) : State := { encodeAction s with FIN := false, STATE := .done }

/-- What follows the feed-forward of step 63 (43_commands.md R201). -/
def completeOperation (s : State) : State :=
  if s.FIN = false then completeBlock s
  else if s.PEND2 then nextPadBlock s
  else completeFinal s

/-- `engine_step()` (43_commands.md R201). -/
def engineStep (s : State) : State :=
  let t := advanceStep s
  if s.I.toNat < 63 then { t with I := s.I + 1 }
  else completeOperation (finishBlock t)

/-- The engine's turn: its step where one is enabled; nothing where none is (43_commands.md R200, R205;
log 3). -/
def engineTurn (s : State) : State := if stepEnabled s then engineStep s else s

end Sys2Proof.Machine
end

