-- ==== Sys2Proof/Machine/Port.lean ====
section
/-! DEFINITION. The register port: what a read returns, what a write does, and what one turn of the
interleaving does (spec/20_memory.md R50 to R63). -/

namespace Sys2Proof.Machine

open Sys2Proof

/-- What `MemRead(idx, 4)` returns (20_memory.md R60). CMD and the reserved locations read 0. -/
def readPort (s : State) (idx : BitVec 6) : Word :=
  let k := idx.toNat
  if k = 0 then idWord
  else if k = 2 then statusWord s
  else if 4 ≤ k ∧ k ≤ 7 then s.H.get (k - 4)
  else if 8 ≤ k ∧ k ≤ 11 then s.W.get (k - 8)
  else if 12 ≤ k ∧ k ≤ 15 then s.SNAP.get (k - 12)
  else if k = 16 then s.SNAP_IDX
  else if k = 17 then s.STEPCNT
  else if k = 18 then lowHalf s.BITLEN
  else if k = 19 then highHalf s.BITLEN
  else if k = 20 then lowHalf s.BLKCNT
  else if k = 21 then highHalf s.BLKCNT
  else if 24 ≤ k ∧ k ≤ 27 then s.DIG.get (k - 24)
  else if 32 ≤ k ∧ k ≤ 39 then wordAt s.HEX (k - 32)
  else if 48 ≤ k then wordAt s.M (k - 48)
  else 0

/-- A read changes no element of the engine (20_memory.md R55); its value goes to the host, which the
model records as a reply (log 4). -/
def memRead (idx : BitVec 6) (s : State) : State :=
  { s with replies := s.replies ++ [⟨idx, readPort s idx⟩] }

/-- The error a rejected command word raises (30_encoding.md R84). -/
def DecodeError.toErrCode : DecodeError → ErrCode
  | .badOpcode => .badOpcode
  | .badField => .badField

/-- `execute_command(v)`: the decode checks, then the command's rule (30_encoding.md R84). -/
def executeCommand (v : Word) (s : State) : Result :=
  match decodeWord v with
  | .command i => exec i s
  | .reject e => .next (raiseError (DecodeError.toErrCode e) s)

/-- `MemWrite(idx, 4, v)` (20_memory.md R61). In ERROR the word is not decoded: only the exact ABORT
word at CMD is recognised, and every other write is ignored. -/
def memWrite (idx : BitVec 6) (v : Word) (s : State) : Result :=
  if s.STATE = .error then
    if idx = 1 ∧ v = 0x0000000F#32 then exec .abort s else .next s
  else if idx = 1 then executeCommand v s
  else if 48 ≤ idx.toNat then .next (writeM (idx.toNat - 48) v s)
  else .next (raiseError .badWrite s)

/-- One turn (20_memory.md R62, R63): a byte-addressed access is the port transaction of its word
index, and none where it has none (R52; log 5). -/
def runTurn (t : Turn) (s : State) : Result :=
  match t with
  | .engine => .next (engineTurn s)
  | .read idx => .next (memRead idx s)
  | .write idx v => memWrite idx v s
  | .busRead addr size =>
    match portIndexOf addr size with
    | some idx => .next (memRead idx s)
    | none => .refused .notAPortTransaction
  | .busWrite addr size v =>
    match portIndexOf addr size with
    | some idx => memWrite idx v s
    | none => .refused .notAPortTransaction
  | .reset => .next (resetEffect s)

/-- The state with a CMD write as the next turn (30_encoding.md R81; log 8). -/
def enqueueCommand (v : Word) (s : State) : State := { s with agenda := .write 1 v :: s.agenda }

end Sys2Proof.Machine
end

