-- ==== Sys2Proof/Machine/Step.lean ====
section
/-! DEFINITION. One step of the machine: the next turn of the agenda. With no turn left the host is
silent and the engine goes on by itself (spec/43_commands.md R207; log 2). -/

namespace Sys2Proof.Machine

open Sys2Proof

/-- One transition of the engine and its surroundings (spec/20_memory.md R63). -/
def step (s : State) : Host.Outcome State Fault Refusal :=
  match s.agenda with
  | [] => .next (engineTurn s)
  | t :: rest => runTurn t { s with agenda := rest }

/-- The state in which the very next step runs the command whose table word is `w`: a host write of
it to CMD stands first in the agenda (spec/30_encoding.md R81; log 8). -/
def State.withFetchWord (s : State) (nbits w : Nat) : State :=
  enqueueCommand (BitVec.ofNat 32 (w % 2 ^ nbits)) s

end Sys2Proof.Machine
end

