-- ==== Sys2Proof/Machine/Reference.lean ====
section
/-! DEFINITION. The document's contract as pure functions of a byte sequence: `process`, the step trace
and `digest_hex` (spec/41_block_processor.md R136, R137; spec/43_commands.md R210). The engine's step
does not use them: statements compare the engine with them. -/

namespace Sys2Proof.Machine

open Sys2Proof

/-- Block `b` of a byte sequence (41_block_processor.md R136, 20_memory.md R56). -/
def messageBlock (P : List Byte) (b : Nat) : Vector Word 16 :=
  blockOfBytes fun j => P.getD (64 * b + j) 0

/-- The MD Buffer after the first `n` blocks of a byte sequence (41_block_processor.md R136). -/
def chainingValue (P : List Byte) : Nat → Quad
  | 0 => iv
  | b + 1 => compressFn kRom sRom (chainingValue P b) (messageBlock P b)

/-- The step trace of the first `n` blocks, in processing order (41_block_processor.md R137). -/
def stepTrace (P : List Byte) (n : Nat) : List Quad :=
  (List.range n).flatMap fun b => blockTrace kRom sRom (chainingValue P b) (messageBlock P b)

/-- The document's `process`. Its precondition, a length that is a multiple of 64, is the document's
InvalidInput, which the engine's interface cannot express (41_block_processor.md R136; log 15). -/
def process (P : List Byte) (trace : Bool) : Option (Quad × Option (List Quad)) :=
  if P.length % 64 = 0 then
    some (chainingValue P (P.length / 64), if trace then some (stepTrace P (P.length / 64)) else none)
  else none

/-- The document's `digest_hex`: pad, process, encode (43_commands.md R210). -/
def digestHex (message : List Byte) : Option (List Byte) :=
  (process (pad message) false).map fun r => hexString r.1

end Sys2Proof.Machine
end

