-- ==== Sys2Proof/Safety.lean ====
section
/-! DEFINITION. The terms claims are made in: the invariants of the machine, runs of several steps, what
an operation still has to do, and the parts of a state that a claim compares. -/

namespace Sys2Proof.Machine

open Sys2Proof

/-- The invariants of spec/10_state.md R42. Its clause on the values of `STATE` is in the type. -/
abbrev State.RuleR42 (s : State) : Prop :=
  (s.PEND2 = true → s.FIN = true) ∧
  (s.FIN = true → s.STATE = .busy ∨ s.STATE = .error) ∧
  (s.TV = true → s.TEN = true) ∧
  (s.ERR_CODE ≠ .none ↔ s.STATE = .error) ∧
  (s.STATE ≠ .busy → s.STATE ≠ .error → s.I = 0) ∧
  (s.DV = true → s.DIG = digWords s.H ∧ s.HEX = hexWords s.H)

/-- R42, with the reason it gives for its last clause: `DV` is cleared at every block start, so no
operation in progress has it set. -/
abbrev State.Inv (s : State) : Prop := s.RuleR42 ∧ (s.STATE = .busy → s.DV = false)

/-- While an operation is in progress, `W` is what the first `I` steps make of the current `H` and `M`
(41_block_processor.md R131 to R133). -/
abbrev State.MidBlock (s : State) : Prop :=
  s.STATE = .busy → s.W = stepsUpTo s.K s.S s.H s.M s.I.toNat

/-- The counters agree: 64 steps a block plus the steps of the block in progress, and a held snapshot
carries the number of the last step (10_state.md R36, R37, R39; 95_test_vectors.md T8). -/
abbrev State.CountersAgree (s : State) : Prop :=
  s.STEPCNT = 64#32 * s.BLKCNT.setWidth 32 + s.I.setWidth 32 ∧
  (s.TV = true → s.SNAP_IDX = s.STEPCNT)

/-- `n` steps of the machine, stopping where a step stops. -/
def steps : Nat → State → Result
  | 0, s => .next s
  | n + 1, s =>
    match step s with
    | .next t => steps n t
    | .fault f => .fault f
    | .refused r => .refused r

/-- The engine steps the operation in progress still needs (43_commands.md R206). -/
def stepsLeft (s : State) : Nat :=
  if s.STATE = .busy then 64 - s.I.toNat + (if s.FIN && s.PEND2 then 64 else 0) else 0

/-- The elements of 10_state.md R20 alone: the model's own two fields put at fixed values. -/
def State.architectural (s : State) : State := { s with agenda := [], replies := [] }

/-- The elements no trace reaches: the trace enable, the hold and the snapshot put at their reset
values (41_block_processor.md R138). -/
def State.forgetTrace (s : State) : State :=
  { s with TEN := false, TV := false, SNAP := Quad.zero, SNAP_IDX := 0 }

/-- `t` is the state INIT or ABORT makes of `s`: a fresh message whatever `s` held, with the trace
enable and the sequencer state given (43_commands.md R181, R184, R189). -/
def State.freshFrom (s : State) (ten : Bool) (state : SeqState) : State :=
  { State.reset with
    TEN := ten, STATE := state, K := s.K, S := s.S, agenda := s.agenda, replies := s.replies }

/-- Turns that let an operation in progress go on: the engine's own, and the host's reads and NOP, by the
port or by byte address (43_commands.md R208). -/
def Turn.letsRun : Turn → Bool
  | .engine => true
  | .read _ => true
  | .write idx v => idx == 1 && v == 0
  | .busRead addr size => (portIndexOf addr size).isSome
  | .busWrite addr size v => portIndexOf addr size == some 1 && v == 0
  | .reset => false

/-- A port read, made by word index or by byte address (20_memory.md R51, R52). -/
def Turn.isRead : Turn → Bool
  | .read _ => true
  | .busRead addr size => (portIndexOf addr size).isSome
  | _ => false

/-- The host write a turn makes, by the port or by byte address, if it is one (20_memory.md R51, R52). -/
def Turn.hostWrite : Turn → Option (BitVec 6 × Word)
  | .write idx v => some (idx, v)
  | .busWrite addr size v => (portIndexOf addr size).map fun idx => (idx, v)
  | _ => none

/-- From `s` to `t` the message was cleared: the reset input fell, or the host wrote INIT or ABORT to CMD, and
`t` is the fresh message (43_commands.md R181, R184, R189; 70_reset_and_hazards.md R250). -/
def State.ClearedTo (s t : State) : Prop :=
  t = { s with agenda := s.agenda.tail }.freshFrom t.TEN t.STATE ∧
  (s.agenda.head? = some .reset ∨
    ∃ turn v i, s.agenda.head? = some turn ∧ turn.hostWrite = some (1, v) ∧
      decodeWord v = .command i ∧ (i = .abort ∨ ∃ ten, i = .init ten))

end Sys2Proof.Machine
end

