-- ==== Sys2Proof/Certificates/Slice0/Obligations.lean ====
section
/-! DEFINITION. The statements for the provers. Each docstring names the rule of spec/ it formalises;
"derived" marks what the spec itself infers or what rests on a choice of the model. -/

open Sys2Proof Sys2Proof.Machine

-- ## Reset and the invariants

/-- 70_reset_and_hazards.md R250: the reset input, in whatever state it falls, gives every element its reset
value, as ABORT does; the state after reset has the same values. -/
def Obligations.ResetGivesEveryElementItsValue : Prop :=
  (∀ (s : State) (rest : List Turn), s.agenda = .reset :: rest →
    step s = .next
      { H := ⟨0x67452301#32, 0xefcdab89#32, 0x98badcfe#32, 0x10325476#32⟩
        W := ⟨0, 0, 0, 0⟩, M := Vector.replicate 16 0, K := s.K, S := s.S
        STATE := .idle, I := 0, FIN := false, PEND2 := false
        TEN := false, TV := false, DV := false, ERR_CODE := .none
        SNAP := ⟨0, 0, 0, 0⟩, SNAP_IDX := 0, STEPCNT := 0, BITLEN := 0, BLKCNT := 0
        DIG := ⟨0, 0, 0, 0⟩, HEX := Vector.replicate 8 0
        agenda := rest, replies := s.replies }) ∧
  (∀ (s : State) (rest : List Turn), s.agenda = .reset :: rest → s.K = kRom → s.S = sRom →
    step s = .next { State.reset with agenda := rest, replies := s.replies }) ∧
  ∀ (s : State) (rest : List Turn), s.agenda = .reset :: rest →
    step s = exec .abort { s with agenda := rest }

/-- Derived (10_state.md R42 and 95_test_vectors.md T8): the three invariants hold at reset. -/
def Obligations.InvariantsHoldAtReset : Prop :=
  State.reset.Inv ∧ State.reset.MidBlock ∧ State.reset.CountersAgree

/-- Derived (the sentence of 10_state.md R42 that the spec marks as its inference): every step of every
state keeps it. -/
def Obligations.EveryStepKeepsInv : Prop :=
  ∀ s t : State, s.Inv → step s = .next t → t.Inv

/-- Derived (41_block_processor.md R131 to R133, 43_commands.md R201): while BUSY, the working registers are
what the first `I` steps make of the current MD Buffer and block, and every step keeps that. -/
def Obligations.EveryStepKeepsMidBlock : Prop :=
  ∀ s t : State, s.MidBlock → step s = .next t → t.MidBlock

/-- Derived (10_state.md R36, R37, R39; 95_test_vectors.md T8): every step keeps the agreement of the
counters. -/
def Obligations.EveryStepKeepsCountersAgree : Prop :=
  ∀ s t : State, s.Inv → s.CountersAgree → step s = .next t → t.CountersAgree

/-- 10_state.md R26 and R27, with the tables of 41_block_processor.md R122 and R123: no transition writes a ROM,
no read of the port reaches one, and after reset they hold the values of the tables. -/
def Obligations.RomsAreFixedAndUnreachable : Prop :=
  (∀ s t : State, step s = .next t → t.K = s.K ∧ t.S = s.S) ∧
  (∀ (s : State) (K : Vector Word 64) (S : Vector (BitVec 5) 64) (idx : BitVec 6),
    readPort { s with K := K, S := S } idx = readPort s idx) ∧
  State.reset.K.toList =
      [0xd76aa478#32, 0xe8c7b756#32, 0x242070db#32, 0xc1bdceee#32, 0xf57c0faf#32, 0x4787c62a#32,
       0xa8304613#32, 0xfd469501#32, 0x698098d8#32, 0x8b44f7af#32, 0xffff5bb1#32, 0x895cd7be#32,
       0x6b901122#32, 0xfd987193#32, 0xa679438e#32, 0x49b40821#32] ++
      [0xf61e2562#32, 0xc040b340#32, 0x265e5a51#32, 0xe9b6c7aa#32, 0xd62f105d#32, 0x02441453#32,
       0xd8a1e681#32, 0xe7d3fbc8#32, 0x21e1cde6#32, 0xc33707d6#32, 0xf4d50d87#32, 0x455a14ed#32,
       0xa9e3e905#32, 0xfcefa3f8#32, 0x676f02d9#32, 0x8d2a4c8a#32] ++
      [0xfffa3942#32, 0x8771f681#32, 0x6d9d6122#32, 0xfde5380c#32, 0xa4beea44#32, 0x4bdecfa9#32,
       0xf6bb4b60#32, 0xbebfbc70#32, 0x289b7ec6#32, 0xeaa127fa#32, 0xd4ef3085#32, 0x04881d05#32,
       0xd9d4d039#32, 0xe6db99e5#32, 0x1fa27cf8#32, 0xc4ac5665#32] ++
      [0xf4292244#32, 0x432aff97#32, 0xab9423a7#32, 0xfc93a039#32, 0x655b59c3#32, 0x8f0ccc92#32,
       0xffeff47d#32, 0x85845dd1#32, 0x6fa87e4f#32, 0xfe2ce6e0#32, 0xa3014314#32, 0x4e0811a1#32,
       0xf7537e82#32, 0xbd3af235#32, 0x2ad7d2bb#32, 0xeb86d391#32] ∧
  State.reset.S.toList.map BitVec.toNat =
    (List.replicate 4 [7, 12, 17, 22]).flatten ++ (List.replicate 4 [5, 9, 14, 20]).flatten ++
      (List.replicate 4 [4, 11, 16, 23]).flatten ++ (List.replicate 4 [6, 10, 15, 21]).flatten

-- ## Tables and the step function

/-- Derived (41_block_processor.md R122, whose radians are general knowledge, log 20): every entry of the
constant ROM is the integer part of `|sin(i + 1)| * 2^32`. -/
def Obligations.ConstantTableIsTheSineFormula : Prop :=
  ∀ i : Nat, i < 64 →
    ((wordAt kRom i).toNat : ℤ) = ⌊|Real.sin ((i : ℝ) + 1)| * (2 : ℝ) ^ 32⌋

/-- 41_block_processor.md R125 to R128: each bit of a mixing function's result, from the same bit of B, C
and D. -/
def Obligations.MixingFunctionsBitByBit : Prop :=
  ∀ (b c d : Word) (j : Nat), j < 32 →
    (mix .first b c d).getLsbD j = (if b.getLsbD j then c.getLsbD j else d.getLsbD j) ∧
    (mix .second b c d).getLsbD j = (if d.getLsbD j then b.getLsbD j else c.getLsbD j) ∧
    (mix .third b c d).getLsbD j = ((b.getLsbD j != c.getLsbD j) != d.getLsbD j) ∧
    (mix .fourth b c d).getLsbD j = (c.getLsbD j != (b.getLsbD j || !d.getLsbD j))

/-- 00_scope.md R9: rotation is circular over 32 bits, and the engine rotates by 4 to 23 only. -/
def Obligations.RotationIsCircular : Prop :=
  (∀ (x : Word) (s j : Nat), 1 ≤ s → s ≤ 31 → j < 32 →
    (rotl32 x s).getLsbD j = x.getLsbD ((j + (32 - s)) % 32) ∧
    (rotl32 x s).toNat = (x.toNat * 2 ^ s % 2 ^ 32 + x.toNat / 2 ^ (32 - s))) ∧
  ∀ i : BitVec 6, 4 ≤ rotAmount sRom i ∧ rotAmount sRom i ≤ 23

/-- 41_block_processor.md R131, with the tables of R123 and R129: step `i` with the ROMs of the hardware, in
arithmetic of natural numbers modulo 2^32. -/
def Obligations.StepFunctionInNaturalArithmetic : Prop :=
  ∀ (i : BitVec 6) (w : Quad) (X : Vector Word 16),
    let n := i.toNat
    let r : Round := if n < 16 then .first else if n < 32 then .second else if n < 48 then .third else .fourth
    let g := if n < 16 then n else if n < 32 then (5 * n + 1) % 16
      else if n < 48 then (3 * n + 5) % 16 else 7 * n % 16
    let p := if n < 16 then [7, 12, 17, 22] else if n < 32 then [5, 9, 14, 20]
      else if n < 48 then [4, 11, 16, 23] else [6, 10, 15, 21]
    let amount := p.getD (n % 4) 0
    let tmp := (w.A.toNat + (mix r w.B w.C w.D).toNat + (wordAt kRom n).toNat + (wordAt X g).toNat) % 2 ^ 32
    (stepFn kRom sRom i w X).A = w.D ∧
    (stepFn kRom sRom i w X).B.toNat =
      (w.B.toNat + (tmp * 2 ^ amount % 2 ^ 32 + tmp / 2 ^ (32 - amount))) % 2 ^ 32 ∧
    (stepFn kRom sRom i w X).C = w.B ∧
    (stepFn kRom sRom i w X).D = w.C

-- ## Decoding and encoding

/-- Derived (30_encoding.md R82, R84; 43_commands.md R183 to R189): a word decodes to a command exactly when
it is that command's encoding. -/
def Obligations.DecodeIsTheInverseOfEncode : Prop :=
  ∀ (v : Word) (i : Instr), decodeWord v = .command i ↔ encode i = v

/-- 30_encoding.md R82 and R83: the match and mask of every row of the opcode table, and the operand bits. -/
def Obligations.DecoderFollowsMatchAndMask : Prop :=
  ∀ v : Word,
    (decodeWord v = .command .nop ↔ v &&& 0xFFFFFFFF#32 = 0x00000000#32) ∧
    (∀ t : Bool, decodeWord v = .command (.init t) ↔
      v &&& 0xFFFFFFEF#32 = 0x00000001#32 ∧ v.getLsbD 4 = t) ∧
    (decodeWord v = .command .block ↔ v &&& 0xFFFFFFFF#32 = 0x00000002#32) ∧
    (∀ n : BitVec 6, decodeWord v = .command (.final n) ↔
      v &&& 0xFFFFC0FF#32 = 0x00000003#32 ∧ v.extractLsb' 8 6 = n) ∧
    (decodeWord v = .command .encode ↔ v &&& 0xFFFFFFFF#32 = 0x00000004#32) ∧
    (decodeWord v = .command .tack ↔ v &&& 0xFFFFFFFF#32 = 0x00000005#32) ∧
    (decodeWord v = .command .abort ↔ v &&& 0xFFFFFFFF#32 = 0x0000000F#32)

/-- 30_encoding.md R85: which words are illegal, and under which name; a legal opcode with a clean word is
never rejected. -/
def Obligations.IllegalWordsAreRejectedByName : Prop :=
  ∀ v : Word,
    (decodeWord v = .reject .badOpcode ↔
      6 ≤ (v.extractLsb' 0 4).toNat ∧ (v.extractLsb' 0 4).toNat ≤ 14) ∧
    (decodeWord v = .reject .badField ↔
      ((v.extractLsb' 0 4).toNat ≤ 5 ∨ v.extractLsb' 0 4 = 15#4) ∧
      (v.extractLsb' 5 3 ≠ 0#3 ∨ v.extractLsb' 14 18 ≠ 0#18 ∨
        (v.getLsbD 4 = true ∧ v.extractLsb' 0 4 ≠ 1#4) ∨
        (v.extractLsb' 8 6 ≠ 0#6 ∧ v.extractLsb' 0 4 ≠ 3#4)))

/-- Derived (30_encoding.md R80, R85): the decoder accepts a word exactly when its five fields are well
formed, and every command's encoding is well formed. -/
def Obligations.DecoderAcceptsExactlyWellFormedWords : Prop :=
  (∀ v : Word, (∃ i, decodeWord v = .command i) ↔ (fieldsOfWord v).wellFormed = true) ∧
  ∀ i : Instr, fieldsOfWord (encode i) = i.fields ∧ i.wellFormed = true

/-- Derived (30_encoding.md R80, R82): words written out bit by bit from the encodings of the rows. -/
def Obligations.WordsOfTheTableDecode : Prop :=
  decodeWord 0b00000000000000000000000000000000#32 = .command .nop ∧
  decodeWord 0b00000000000000000000000000010001#32 = .command (.init true) ∧
  decodeWord 0b00000000000000000011011100000011#32 = .command (.final 55) ∧
  decodeWord 0b00000000000000000000000000001111#32 = .command .abort ∧
  decodeWord 0b00000000000000000000000000000110#32 = .reject .badOpcode ∧
  decodeWord 0b10000000000000000000000000010001#32 = .reject .badField

-- ## The port

/-- Derived (30_encoding.md R81 and 43_commands.md R180; in the ERROR case log 11): a step whose next turn is a CMD
write of a word that decodes runs the decoded command. The second clause is the model's own choice (log 8, DESIGN
CHOICE), no rule of the spec: `withFetchWord` stands for the host that writes the word, and the next step runs it. -/
def Obligations.CommandWriteRunsTheDecodedCommand : Prop :=
  (∀ (s : State) (v : Word) (i : Instr) (rest : List Turn),
    s.agenda = .write 1 v :: rest → decodeWord v = .command i →
    step s = exec i { s with agenda := rest }) ∧
  ∀ (s : State) (nbits w : Nat) (i : Instr),
    decodeTableWord nbits w = some i → step (s.withFetchWord nbits w) = exec i s

/-- 60_exceptions.md R222, R223: what a CMD write of an illegal word does outside ERROR. -/
def Obligations.IllegalWordsRaiseTheirError : Prop :=
  ∀ (s : State) (v : Word) (rest : List Turn), s.agenda = .write 1 v :: rest → s.STATE ≠ .error →
    (6 ≤ (v.extractLsb' 0 4).toNat → (v.extractLsb' 0 4).toNat ≤ 14 →
      step s = .next { s with agenda := rest, STATE := .error, ERR_CODE := .badOpcode }) ∧
    ((v.extractLsb' 0 4).toNat ≤ 5 ∨ v.extractLsb' 0 4 = 15#4 →
      v.extractLsb' 5 3 ≠ 0#3 ∨ v.extractLsb' 14 18 ≠ 0#18 ∨
        (v.getLsbD 4 = true ∧ v.extractLsb' 0 4 ≠ 1#4) ∨
        (v.extractLsb' 8 6 ≠ 0#6 ∧ v.extractLsb' 0 4 ≠ 3#4) →
      step s = .next { s with agenda := rest, STATE := .error, ERR_CODE := .badField })

/-- 20_memory.md R60 and R55: what a read returns at each of the 64 indices, and that it changes no state
element (the reply is the model's record of the value returned, log 4). -/
def Obligations.ReadReturnsTheLocation : Prop :=
  ∀ (s : State) (idx : BitVec 6) (rest : List Turn), s.agenda = .read idx :: rest →
    ∃ v : Word,
      step s = .next { s with agenda := rest, replies := s.replies ++ [⟨idx, v⟩] } ∧
      (idx.toNat = 0 → v = 0x4D443501#32) ∧
      (idx.toNat = 2 → v = statusWord s) ∧
      (idx.toNat = 4 → v = s.H.A) ∧ (idx.toNat = 5 → v = s.H.B) ∧
      (idx.toNat = 6 → v = s.H.C) ∧ (idx.toNat = 7 → v = s.H.D) ∧
      (idx.toNat = 8 → v = s.W.A) ∧ (idx.toNat = 9 → v = s.W.B) ∧
      (idx.toNat = 10 → v = s.W.C) ∧ (idx.toNat = 11 → v = s.W.D) ∧
      (idx.toNat = 12 → v = s.SNAP.A) ∧ (idx.toNat = 13 → v = s.SNAP.B) ∧
      (idx.toNat = 14 → v = s.SNAP.C) ∧ (idx.toNat = 15 → v = s.SNAP.D) ∧
      (idx.toNat = 16 → v = s.SNAP_IDX) ∧ (idx.toNat = 17 → v = s.STEPCNT) ∧
      (idx.toNat = 18 → v.toNat = s.BITLEN.toNat % 2 ^ 32) ∧
      (idx.toNat = 19 → v.toNat = s.BITLEN.toNat / 2 ^ 32) ∧
      (idx.toNat = 20 → v.toNat = s.BLKCNT.toNat % 2 ^ 32) ∧
      (idx.toNat = 21 → v.toNat = s.BLKCNT.toNat / 2 ^ 32) ∧
      (idx.toNat = 24 → v = s.DIG.A) ∧ (idx.toNat = 25 → v = s.DIG.B) ∧
      (idx.toNat = 26 → v = s.DIG.C) ∧ (idx.toNat = 27 → v = s.DIG.D) ∧
      (∀ r : Fin 8, idx.toNat = 32 + r → v = s.HEX[r]) ∧
      (∀ k : Fin 16, idx.toNat = 48 + k → v = s.M[k]) ∧
      (idx.toNat = 1 ∨ idx.toNat = 3 ∨ idx.toNat = 22 ∨ idx.toNat = 23 ∨
        (28 ≤ idx.toNat ∧ idx.toNat ≤ 31) ∨ (40 ≤ idx.toNat ∧ idx.toNat ≤ 47) → v = 0)

/-- 10_state.md R33, with the values of R28 and 60_exceptions.md R221: every field of STATUS, its
reset value, and the error of a write to it. -/
def Obligations.StatusFieldsAreAssembled : Prop :=
  (∀ s : State,
    (statusWord s).extractLsb' 0 3 =
      (match s.STATE with | .idle => 0#3 | .ready => 1#3 | .busy => 2#3 | .done => 3#3 | .error => 4#3) ∧
    (statusWord s).getLsbD 3 = s.DV ∧
    (statusWord s).getLsbD 4 = s.TV ∧
    (statusWord s).getLsbD 5 = s.TEN ∧
    (statusWord s).getLsbD 6 = s.FIN ∧
    (statusWord s).getLsbD 7 = s.PEND2 ∧
    (statusWord s).extractLsb' 8 6 = s.I ∧
    (statusWord s).extractLsb' 14 2 = 0#2 ∧
    (statusWord s).extractLsb' 16 4 =
      (match s.ERR_CODE with
        | .none => 0#4 | .badOpcode => 1#4 | .badField => 2#4 | .badState => 3#4
        | .writeBusy => 4#4 | .noSnapshot => 5#4 | .badWrite => 6#4) ∧
    (statusWord s).extractLsb' 20 12 = 0#12) ∧
  (∀ (s : State) (v : Word) (rest : List Turn), s.agenda = .write 2 v :: rest → s.STATE ≠ .error →
    step s = .next { s with agenda := rest, STATE := .error, ERR_CODE := .badWrite }) ∧
  statusWord State.reset = 0x00000000#32

/-- 60_exceptions.md R227: a write, outside ERROR, to any index but 1 and 48..63. -/
def Obligations.WriteToReadOnlyLocationRaisesBadWrite : Prop :=
  ∀ (s : State) (idx : BitVec 6) (v : Word) (rest : List Turn),
    s.agenda = .write idx v :: rest → s.STATE ≠ .error → idx.toNat ≠ 1 → idx.toNat < 48 →
    step s = .next { s with agenda := rest, STATE := .error, ERR_CODE := .badWrite }

/-- 43_commands.md R190 and 20_memory.md R56: a block-buffer write, in words and in bytes; in BUSY it is not
performed. -/
def Obligations.BlockBufferWrite : Prop :=
  ∀ (s : State) (idx : BitVec 6) (k : Nat) (v : Word) (rest : List Turn),
    s.agenda = .write idx v :: rest → k < 16 → idx.toNat = 48 + k →
    (s.STATE = .idle ∨ s.STATE = .ready ∨ s.STATE = .done →
      ∃ M' : Vector Word 16,
        step s = .next { s with agenda := rest, M := M' } ∧
        (∀ j, j < 16 → wordAt M' j = if j = k then v else wordAt s.M j) ∧
        ∀ j, j < 64 → blockByte M' j = if j / 4 = k then byteOf v (j % 4) else blockByte s.M j) ∧
    (s.STATE = .busy →
      step s = .next { s with agenda := rest, STATE := .error, ERR_CODE := .writeBusy }) ∧
    (s.STATE = .error → step s = .next { s with agenda := rest })

/-- 20_memory.md R52 (log 5): a byte-addressed access of 4 bytes at BASE + 4 * idx is the transaction at idx;
BASE is a multiple of 256; every other access is refused. -/
def Obligations.ByteAddressedAccessIsTheWordTransaction : Prop :=
  portBase % 256 = 0 ∧
  (∀ (s : State) (idx : BitVec 6) (v : Word) (rest : List Turn),
    step { s with agenda := .busRead (portBase + 4 * idx.toNat) 4 :: rest } =
      step { s with agenda := .read idx :: rest } ∧
    step { s with agenda := .busWrite (portBase + 4 * idx.toNat) 4 v :: rest } =
      step { s with agenda := .write idx v :: rest }) ∧
  ∀ (s : State) (addr size : Nat) (v : Word) (rest : List Turn),
    (size ≠ 4 ∨ ∀ idx : BitVec 6, addr ≠ portBase + 4 * idx.toNat) →
    step { s with agenda := .busRead addr size :: rest } = .refused .notAPortTransaction ∧
    step { s with agenda := .busWrite addr size v :: rest } = .refused .notAPortTransaction

/-- Derived (60_exceptions.md R220; log 2, 3): every turn but a byte-addressed access that the port cannot
express has a next state, so no run stops. -/
def Obligations.EveryPortTurnHasANextState : Prop :=
  ∀ s : State,
    (∀ addr size, s.agenda.head? = some (.busRead addr size) → portIndexOf addr size ≠ none) →
    (∀ addr size v, s.agenda.head? = some (.busWrite addr size v) → portIndexOf addr size ≠ none) →
    ∃ t, step s = .next t

-- ## The commands

/-- 43_commands.md R183: NOP changes nothing in any state. -/
def Obligations.NopHasNoEffect : Prop :=
  decodeWord 0x00000000#32 = .command .nop ∧
  (∀ v : Word, v.extractLsb' 0 4 = 0x0#4 → v ≠ 0x00000000#32 → decodeWord v = .reject .badField) ∧
  ∀ s : State, exec .nop s = .next s

/-- 43_commands.md R184 with R181: INIT outside BUSY and ERROR gives a fresh message; in BUSY, BAD_STATE. -/
def Obligations.InitOpensAFreshMessage : Prop :=
  (∀ t : Bool, decodeWord (0x00000001#32 ||| (BitVec.ofBool t).setWidth 32 <<< 4) = .command (.init t)) ∧
  (∀ v : Word, v.extractLsb' 0 4 = 0x1#4 → v &&& 0xFFFFFFEF#32 ≠ 0x00000001#32 →
    decodeWord v = .reject .badField) ∧
  (∀ (t : Bool) (s : State), s.STATE = .idle ∨ s.STATE = .ready ∨ s.STATE = .done →
    exec (.init t) s = .next
      { H := ⟨0x67452301#32, 0xefcdab89#32, 0x98badcfe#32, 0x10325476#32⟩
        W := ⟨0, 0, 0, 0⟩, M := Vector.replicate 16 0, K := s.K, S := s.S
        STATE := .ready, I := 0, FIN := false, PEND2 := false
        TEN := t, TV := false, DV := false, ERR_CODE := .none
        SNAP := ⟨0, 0, 0, 0⟩, SNAP_IDX := 0, STEPCNT := 0, BITLEN := 0, BLKCNT := 0
        DIG := ⟨0, 0, 0, 0⟩, HEX := Vector.replicate 8 0
        agenda := s.agenda, replies := s.replies }) ∧
  ∀ (t : Bool) (s : State), s.STATE = .busy →
    exec (.init t) s = .next { s with STATE := .error, ERR_CODE := .badState }

/-- 43_commands.md R185: BLOCK in READY starts the operation and changes nothing else; elsewhere,
BAD_STATE. -/
def Obligations.BlockStartsTheOperation : Prop :=
  decodeWord 0x00000002#32 = .command .block ∧
  (∀ v : Word, v.extractLsb' 0 4 = 0x2#4 → v ≠ 0x00000002#32 → decodeWord v = .reject .badField) ∧
  (∀ s : State, s.STATE = .ready →
    exec .block s = .next
      { s with BITLEN := s.BITLEN + 512, FIN := false, PEND2 := false, DV := false
               W := s.H, I := 0, STATE := .busy }) ∧
  ∀ s : State, s.STATE = .idle ∨ s.STATE = .busy ∨ s.STATE = .done →
    exec .block s = .next { s with STATE := .error, ERR_CODE := .badState }

/-- 43_commands.md R186 with 40_padder.md R104: FINAL in READY counts the tail, writes every byte of the block
buffer as the padding says, and starts the operation; elsewhere, BAD_STATE. -/
def Obligations.FinalPadsTheTailAndStarts : Prop :=
  (∀ n : BitVec 6, decodeWord (0x00000003#32 ||| n.setWidth 32 <<< 8) = .command (.final n)) ∧
  (∀ v : Word, v.extractLsb' 0 4 = 0x3#4 → v &&& 0xFFFFC0FF#32 ≠ 0x00000003#32 →
    decodeWord v = .reject .badField) ∧
  (∀ (n : BitVec 6) (s : State), s.STATE = .ready →
    ∃ M' : Vector Word 16,
      exec (.final n) s = .next
        { s with BITLEN := s.BITLEN + BitVec.ofNat 64 (8 * n.toNat), M := M'
                 FIN := true, PEND2 := decide (56 ≤ n.toNat), DV := false
                 W := s.H, I := 0, STATE := .busy } ∧
      ∀ j, j < 64 → blockByte M' j =
        if j < n.toNat then blockByte s.M j
        else if j = n.toNat then 0x80#8
        else if n.toNat ≤ 55 ∧ 56 ≤ j then
          byteOf64 (s.BITLEN + BitVec.ofNat 64 (8 * n.toNat)) (j - 56)
        else 0x00#8) ∧
  ∀ (n : BitVec 6) (s : State), s.STATE = .idle ∨ s.STATE = .busy ∨ s.STATE = .done →
    exec (.final n) s = .next { s with STATE := .error, ERR_CODE := .badState }

/-- 43_commands.md R187 with 42_digest_encoder.md R165: ENCODE in READY or DONE writes DIG, HEX and DV from the
current MD Buffer and nothing else; elsewhere, BAD_STATE. -/
def Obligations.EncodeWritesTheDigestRegisters : Prop :=
  decodeWord 0x00000004#32 = .command .encode ∧
  (∀ v : Word, v.extractLsb' 0 4 = 0x4#4 → v ≠ 0x00000004#32 → decodeWord v = .reject .badField) ∧
  (∀ s : State, s.STATE = .ready ∨ s.STATE = .done →
    ∃ X : Vector Word 8,
      exec .encode s = .next
        { s with DIG := ⟨bswap32 s.H.A, bswap32 s.H.B, bswap32 s.H.C, bswap32 s.H.D⟩, HEX := X, DV := true } ∧
      ∀ r j, r < 8 → j < 4 → byteOf (wordAt X r) j = hexChar s.H (4 * r + j)) ∧
  ∀ s : State, s.STATE = .idle ∨ s.STATE = .busy →
    exec .encode s = .next { s with STATE := .error, ERR_CODE := .badState }

/-- Derived (42_digest_encoder.md R160 to R162, whose ASCII codes are general knowledge, log 20): the 32
elements of the digest string are the lowercase hex digits of its bytes, in order, high digit first. -/
def Obligations.HexStringIsTheDigestInHex : Prop :=
  ∀ h : Quad,
    let ascii := fun x : Nat => if x ≤ 9 then 0x30 + x else 0x61 + (x - 10)
    (hexString h).length = 32 ∧
    (∀ c, c < 32 → (hexString h).getD c 0 = hexChar h c) ∧
    ∀ k j, k < 4 → j < 4 →
      let d := (h.get k).toNat / 2 ^ (8 * j) % 2 ^ 8
      ((hexString h).getD (2 * (4 * k + j)) 0).toNat = ascii (d / 16) ∧
      ((hexString h).getD (2 * (4 * k + j) + 1) 0).toNat = ascii (d % 16)

/-- 42_digest_encoder.md R163 (with the characters of R161): each DIG register is its digest word with the bytes
swapped, and DIG0 to DIG3 printed as 8 hex digits each are the digest string. -/
def Obligations.DigRegistersPrintTheDigest : Prop :=
  ∀ h : Quad,
    (∀ k j, k < 4 → j < 4 → byteOf ((digWords h).get k) (3 - j) = digestByte h (4 * k + j)) ∧
    hexString h =
      (List.range 32).map fun c => hexDigit (((digWords h).get (c / 8)).extractLsb' (28 - 4 * (c % 8)) 4)

/-- 43_commands.md R188: TACK, outside ERROR, with a held snapshot and without one. -/
def Obligations.TackLiftsTheHold : Prop :=
  decodeWord 0x00000005#32 = .command .tack ∧
  (∀ v : Word, v.extractLsb' 0 4 = 0x5#4 → v ≠ 0x00000005#32 → decodeWord v = .reject .badField) ∧
  (∀ s : State, s.STATE ≠ .error → s.TV = true → exec .tack s = .next { s with TV := false }) ∧
  ∀ s : State, s.STATE ≠ .error → s.TV = false →
    exec .tack s = .next { s with STATE := .error, ERR_CODE := .noSnapshot }

/-- 43_commands.md R189: ABORT, from every state, gives the reset state; in ERROR no other CMD word does
anything. -/
def Obligations.AbortGivesTheResetState : Prop :=
  decodeWord 0x0000000F#32 = .command .abort ∧
  (∀ v : Word, v.extractLsb' 0 4 = 0xF#4 → v ≠ 0x0000000F#32 → decodeWord v = .reject .badField) ∧
  (∀ (s : State) (v : Word) (rest : List Turn), s.agenda = .write 1 v :: rest → s.STATE = .error →
    v ≠ 0x0000000F#32 → step s = .next { s with agenda := rest }) ∧
  ∀ s : State,
    exec .abort s = .next
      { H := ⟨0x67452301#32, 0xefcdab89#32, 0x98badcfe#32, 0x10325476#32⟩
        W := ⟨0, 0, 0, 0⟩, M := Vector.replicate 16 0, K := s.K, S := s.S
        STATE := .idle, I := 0, FIN := false, PEND2 := false
        TEN := false, TV := false, DV := false, ERR_CODE := .none
        SNAP := ⟨0, 0, 0, 0⟩, SNAP_IDX := 0, STEPCNT := 0, BITLEN := 0, BLKCNT := 0
        DIG := ⟨0, 0, 0, 0⟩, HEX := Vector.replicate 8 0
        agenda := s.agenda, replies := s.replies }

/-- Derived (30_encoding.md R83, 43_commands.md R183 to R189, 60_exceptions.md R230): the frame of every
command, said through what the port reads. Whatever the command, `K`, `S`, the turns to come and the replies
stay; besides STATUS, a command that gives a next state changes no location but those of its own rule. -/
def Obligations.CommandsLeaveOtherLocationsAlone : Prop :=
  ∀ (i : Instr) (s t : State), exec i s = .next t →
    (t.K = s.K ∧ t.S = s.S ∧ t.agenda = s.agenda ∧ t.replies = s.replies) ∧
    (∀ idx : BitVec 6, idx.toNat ≠ 2 →
      (match i with
        | .nop => True
        | .tack => True
        | .encode => ¬ (24 ≤ idx.toNat ∧ idx.toNat ≤ 27) ∧ ¬ (32 ≤ idx.toNat ∧ idx.toNat ≤ 39)
        | .block => ¬ (8 ≤ idx.toNat ∧ idx.toNat ≤ 11) ∧ idx.toNat ≠ 18 ∧ idx.toNat ≠ 19
        | .final _ => ¬ (8 ≤ idx.toNat ∧ idx.toNat ≤ 11) ∧ idx.toNat ≠ 18 ∧ idx.toNat ≠ 19 ∧ idx.toNat < 48
        | .init _ => idx.toNat = 0 ∨ idx.toNat = 1 ∨ idx.toNat = 3 ∨ idx.toNat = 22 ∨ idx.toNat = 23 ∨
            (28 ≤ idx.toNat ∧ idx.toNat ≤ 31) ∨ (40 ≤ idx.toNat ∧ idx.toNat ≤ 47)
        | .abort => idx.toNat = 0 ∨ idx.toNat = 1 ∨ idx.toNat = 3 ∨ idx.toNat = 22 ∨ idx.toNat = 23 ∨
            (28 ≤ idx.toNat ∧ idx.toNat ≤ 31) ∨ (40 ≤ idx.toNat ∧ idx.toNat ≤ 47)) →
      readPort t idx = readPort s idx) ∧
    ∀ n : BitVec 6, i = .final n → ∀ j, j < n.toNat → blockByte t.M j = blockByte s.M j

/-- Derived (43_commands.md R213, R181): INIT forgets the past. Two states outside BUSY and ERROR that share
only the ROMs and the model's own fields become one state. -/
def Obligations.InitForgetsThePast : Prop :=
  ∀ (t : Bool) (s₁ s₂ : State),
    s₁.STATE ≠ .busy → s₁.STATE ≠ .error → s₂.STATE ≠ .busy → s₂.STATE ≠ .error →
    s₁.K = s₂.K → s₁.S = s₂.S → s₁.agenda = s₂.agenda → s₁.replies = s₂.replies →
    exec (.init t) s₁ = exec (.init t) s₂

/-- Derived (20_memory.md R68): NOP, ENCODE in READY or DONE, and ABORT done twice are as done once, and so is a
block-buffer write outside BUSY and ERROR. -/
def Obligations.IdempotentTransactions : Prop :=
  (∀ s t : State, exec .nop s = .next t → exec .nop t = .next t) ∧
  (∀ s t : State, s.STATE = .ready ∨ s.STATE = .done → exec .encode s = .next t → exec .encode t = .next t) ∧
  (∀ s t : State, exec .abort s = .next t → exec .abort t = .next t) ∧
  ∀ (s t : State) (idx : BitVec 6) (v : Word), s.STATE ≠ .busy → s.STATE ≠ .error → 48 ≤ idx.toNat →
    memWrite idx v s = .next t → memWrite idx v t = .next t

/-- Derived (40_padder.md R107): what the host left in the bytes at positions `N` and above has no effect. -/
def Obligations.BytesAboveTheTailDoNotMatter : Prop :=
  ∀ (s : State) (M' : Vector Word 16) (n : BitVec 6), s.STATE = .ready →
    (∀ j, j < n.toNat → blockByte M' j = blockByte s.M j) →
    exec (.final n) { s with M := M' } = exec (.final n) s

-- ## Errors

/-- 60_exceptions.md R224: a well-formed command word in a state it is not legal in. -/
def Obligations.CommandInWrongStateRaisesBadState : Prop :=
  ∀ (s : State) (i : Instr) (rest : List Turn), s.agenda = .write 1 (encode i) :: rest →
    ((∃ t, i = .init t) ∧ s.STATE = .busy) ∨
    ((i = .block ∨ ∃ n, i = .final n) ∧ (s.STATE = .idle ∨ s.STATE = .busy ∨ s.STATE = .done)) ∨
    (i = .encode ∧ (s.STATE = .idle ∨ s.STATE = .busy)) →
    step s = .next { s with agenda := rest, STATE := .error, ERR_CODE := .badState }

/-- Derived (60_exceptions.md R231): in ERROR, reads answer, every write but the exact ABORT word is ignored and
the engine has no step. That a read's value is kept as a reply is the model's choice (log 4), and so is that an
engine turn without a step, or a step with no turn to come, answers the same state (log 3, log 2). -/
def Obligations.ErrorStateIgnoresAllButAbort : Prop :=
  ∀ (s : State) (rest : List Turn), s.STATE = .error →
    (∀ (idx : BitVec 6) (v : Word), s.agenda = .write idx v :: rest → idx ≠ 1 ∨ v ≠ 0x0000000F#32 →
      step s = .next { s with agenda := rest }) ∧
    (s.agenda = .write 1 0x0000000F#32 :: rest →
      step s = exec .abort { s with agenda := rest }) ∧
    (∀ idx : BitVec 6, s.agenda = .read idx :: rest →
      step s = .next { s with agenda := rest, replies := s.replies ++ [⟨idx, readPort s idx⟩] }) ∧
    (s.agenda = .engine :: rest → step s = .next { s with agenda := rest }) ∧
    (s.agenda = [] → step s = .next s)

/-- 43_commands.md R182, its ERROR column (derived at the level of `exec`, log 11): a decoded command is ignored
in ERROR, ABORT apart. -/
def Obligations.DecodedCommandsAreIgnoredInError : Prop :=
  ∀ (i : Instr) (s : State), s.STATE = .error → i ≠ .abort → exec i s = .next s

/-- 60_exceptions.md R232: only ABORT or reset leaves ERROR, and both return every element to its reset
value. -/
def Obligations.OnlyAbortOrResetLeavesError : Prop :=
  ∀ s t : State, s.STATE = .error → step s = .next t → t.STATE ≠ .error →
    (s.agenda.head? = some .reset ∨
      ∃ turn, s.agenda.head? = some turn ∧ turn.hostWrite = some (1, 0x0000000F#32)) ∧
    t = { State.reset with K := s.K, S := s.S, agenda := s.agenda.tail, replies := s.replies }

/-- 60_exceptions.md R230 and R220: the one way into ERROR. Only a host write raises an error, and it changes
STATE and ERR_CODE and nothing else. -/
def Obligations.ErrorsArePreciseAndRaisedByWrites : Prop :=
  ∀ s t : State, s.STATE ≠ .error → step s = .next t → t.STATE = .error →
    (∃ turn, s.agenda.head? = some turn ∧ turn.hostWrite ≠ none) ∧
    t.ERR_CODE ≠ .none ∧
    t = { s with STATE := .error, ERR_CODE := t.ERR_CODE, agenda := s.agenda.tail }

-- ## The engine step

/-- 43_commands.md R201 to R204 with 41_block_processor.md R134 and R135: one engine step. In order: a step within
the block, step 63 of a BLOCK operation, of the first of two FINAL blocks, and of the last FINAL block. -/
def Obligations.EngineStepIsOneTransition : Prop :=
  ∀ (s : State) (rest : List Turn), s.agenda = .engine :: rest → s.STATE = .busy →
    ¬ (s.TEN = true ∧ s.TV = true) →
    let w := stepFn s.K s.S s.I s.W s.M
    let h : Quad := ⟨s.H.A + w.A, s.H.B + w.B, s.H.C + w.C, s.H.D + w.D⟩
    let u : State :=
      { s with agenda := rest, W := w, STEPCNT := s.STEPCNT + 1
               SNAP := if s.TEN then w else s.SNAP
               SNAP_IDX := if s.TEN then s.STEPCNT + 1 else s.SNAP_IDX
               TV := if s.TEN then true else s.TV }
    (s.I.toNat < 63 → step s = .next { u with I := s.I + 1 }) ∧
    (s.I.toNat = 63 → s.FIN = false →
      step s = .next { u with H := h, BLKCNT := s.BLKCNT + 1, I := 0, STATE := .ready }) ∧
    (s.I.toNat = 63 → s.FIN = true → s.PEND2 = true →
      ∃ M' : Vector Word 16,
        step s = .next
          { u with H := h, BLKCNT := s.BLKCNT + 1, I := 0, M := M', PEND2 := false, W := h } ∧
        ∀ j, j < 64 → blockByte M' j = if j < 56 then 0x00#8 else byteOf64 s.BITLEN (j - 56)) ∧
    (s.I.toNat = 63 → s.FIN = true → s.PEND2 = false →
      step s = .next
        { u with H := h, BLKCNT := s.BLKCNT + 1, I := 0, DIG := digWords h, HEX := hexWords h
                 DV := true, FIN := false, STATE := .done })

/-- 43_commands.md R200 and R205 (log 2, 3): where no step is enabled the engine's turn changes nothing, and
with no turn to come the engine takes its own. -/
def Obligations.EngineWithoutAStepDoesNothing : Prop :=
  ∀ s : State,
    (∀ rest : List Turn, s.agenda = .engine :: rest →
      s.STATE ≠ .busy ∨ (s.TEN = true ∧ s.TV = true) → step s = .next { s with agenda := rest }) ∧
    (s.agenda = [] → s.STATE ≠ .busy ∨ (s.TEN = true ∧ s.TV = true) → step s = .next s) ∧
    (s.agenda = [] → step s = step { s with agenda := [.engine] })

/-- Derived (41_block_processor.md R138): tracing changes no result. An engine step and forgetting the trace
commute. -/
def Obligations.TracingChangesNoResult : Prop :=
  ∀ s : State, stepEnabled s = true →
    (engineStep s).forgetTrace = engineStep s.forgetTrace ∧ stepEnabled s.forgetTrace = true

-- ## Whole operations

/-- Derived (41_block_processor.md R132, 43_commands.md R185, R201, R202, R206): BLOCK and its 64 engine steps
compress the buffer into the MD Buffer and change nothing but what is named. -/
def Obligations.BlockOperationCompressesTheBuffer : Prop :=
  ∀ (s : State) (rest : List Turn), s.STATE = .ready → s.TEN = false →
    s.agenda = List.replicate 64 .engine ++ rest →
    ∃ started : State, exec .block s = .next started ∧
      steps 64 started = .next
        { s with agenda := rest, H := compressFn s.K s.S s.H s.M, W := stepsUpTo s.K s.S s.H s.M 64
                 STEPCNT := s.STEPCNT + 64, BLKCNT := s.BLKCNT + 1, BITLEN := s.BITLEN + 512
                 FIN := false, PEND2 := false, DV := false, I := 0, STATE := .ready }

/-- Derived (40_padder.md R109): the blocks the engine compresses are the blocks of `pad`: full chunks
unchanged, then the padded tail, then, for a tail of 56 bytes or more, the second padding block. -/
def Obligations.EngineBlocksAreTheBlocksOfPad : Prop :=
  ∀ (message : List Byte) (M : Vector Word 16),
    (∀ j, j < message.length % 64 →
      blockByte M j = message.getD (64 * (message.length / 64) + j) 0) →
    let q := message.length / 64
    let n := BitVec.ofNat 6 (message.length % 64)
    let bits := BitVec.ofNat 64 (8 * message.length)
    (∀ b, b < q → messageBlock (pad message) b = messageBlock message b) ∧
    messageBlock (pad message) q = paddedTail M n bits ∧
    (56 ≤ message.length % 64 → messageBlock (pad message) (q + 1) = secondPadBlock bits) ∧
    (pad message).length / 64 = if 56 ≤ message.length % 64 then q + 2 else q + 1

/-- 40_padder.md R101 and R100: the length of the padded message, and its parts. -/
def Obligations.PaddedMessageLengthAndParts : Prop :=
  ∀ message : List Byte,
    (pad message).length = 64 * ((message.length + 9 + 63) / 64) ∧
    (pad message).length % 64 = 0 ∧
    message.length + 9 ≤ (pad message).length ∧
    ∃ z, z < 64 ∧ (message.length + 1 + z) % 64 = 56 ∧
      pad message = message ++ [0x80#8] ++ List.replicate z 0x00#8 ++
        (List.range 8).map fun j => BitVec.ofNat 8 (8 * message.length % 2 ^ 64 / 256 ^ j)

/-- Derived (43_commands.md R210 with 40_padder.md R109 and 41_block_processor.md R136): whatever the message,
from READY with its full chunks compressed, its tail in the buffer and its bits counted, FINAL and 64 or 128
engine steps end in DONE with the digest of the whole message, as the document defines it, in the registers. -/
def Obligations.FinalOperationYieldsTheMessageDigest : Prop :=
  ∀ (message : List Byte) (s : State) (rest : List Turn),
    let q := message.length / 64
    let tail := message.length % 64
    let count := if 56 ≤ tail then 128 else 64
    s.STATE = .ready → s.TEN = false → s.K = kRom → s.S = sRom →
    s.H = chainingValue message q → s.BITLEN = BitVec.ofNat 64 (512 * q) →
    (∀ j, j < tail → blockByte s.M j = message.getD (64 * q + j) 0) →
    s.agenda = List.replicate count .engine ++ rest →
    ∃ started t : State,
      exec (.final (BitVec.ofNat 6 tail)) s = .next started ∧ steps count started = .next t ∧
      t.STATE = .done ∧ t.DV = true ∧ t.FIN = false ∧ t.PEND2 = false ∧ t.I = 0 ∧ t.agenda = rest ∧
      t.BITLEN = BitVec.ofNat 64 (8 * message.length) ∧
      t.BLKCNT = s.BLKCNT + BitVec.ofNat 64 (count / 64) ∧
      t.STEPCNT = s.STEPCNT + BitVec.ofNat 32 count ∧
      process (pad message) false = some (t.H, none) ∧
      digestHex message =
        some ((List.range 32).map fun c => byteOf (wordAt t.HEX (c / 4)) (c % 4))

/-- Derived (43_commands.md R212, 41_block_processor.md R137): in trace mode, when each step is followed by a
TACK, snapshot `p + 1` of a BLOCK operation is the working-register value after step `p`, and no entry is
lost. -/
def Obligations.TraceModeDeliversEveryStepOfBlock : Prop :=
  ∀ (s : State) (rest : List Turn) (p : Nat), s.STATE = .ready → s.TEN = true → s.TV = false → p < 64 →
    s.agenda = (List.replicate 64 [Turn.engine, Turn.write 1 0x00000005#32]).flatten ++ rest →
    ∃ started t : State, exec .block s = .next started ∧ steps (2 * p + 1) started = .next t ∧
      t.SNAP = stepsUpTo s.K s.S s.H s.M (p + 1) ∧
      t.SNAP_IDX = s.STEPCNT + BitVec.ofNat 32 (p + 1) ∧ t.TV = true ∧
      t.STATE = (if p = 63 then .ready else .busy) ∧
      t.H = (if p = 63 then compressFn s.K s.S s.H s.M else s.H)

/-- Derived (43_commands.md R212, 41_block_processor.md R137, 40_padder.md R105, R106): the same of a FINAL operation
of one or two blocks. Its snapshots run on over the second padding block, and it ends in DONE with the encoding of
the final MD Buffer. -/
def Obligations.TraceModeDeliversEveryStepOfFinal : Prop :=
  ∀ (n : BitVec 6) (s : State) (rest : List Turn) (p : Nat),
    let count := if 56 ≤ n.toNat then 128 else 64
    let bits := s.BITLEN + BitVec.ofNat 64 (8 * n.toNat)
    let M₁ := paddedTail s.M n bits
    let H₁ := compressFn s.K s.S s.H M₁
    let M₂ := secondPadBlock bits
    s.STATE = .ready → s.TEN = true → s.TV = false → p < count →
    s.agenda = (List.replicate count [Turn.engine, Turn.write 1 0x00000005#32]).flatten ++ rest →
    ∃ started t : State, exec (.final n) s = .next started ∧ steps (2 * p + 1) started = .next t ∧
      t.SNAP = (if p < 64 then stepsUpTo s.K s.S s.H M₁ (p + 1) else stepsUpTo s.K s.S H₁ M₂ (p - 64 + 1)) ∧
      t.SNAP_IDX = s.STEPCNT + BitVec.ofNat 32 (p + 1) ∧ t.TV = true ∧
      t.H = (if p < 63 then s.H else if p < 127 then H₁ else compressFn s.K s.S H₁ M₂) ∧
      (p + 1 < count → t.STATE = .busy) ∧
      (p + 1 = count → t.STATE = .done ∧ t.DV = true ∧ t.DIG = digWords t.H ∧ t.HEX = hexWords t.H)

/-- Derived (43_commands.md R206 to R208; the turns of the engine are a premise, log 13): without tracing, an
operation in progress ends, in READY or DONE, once the engine has had as many turns as it still needs, whatever reads
and NOPs, by word index or by byte address, fall between them. -/
def Obligations.OperationInProgressEnds : Prop :=
  ∀ (s : State) (l rest : List Turn), s.STATE = .busy → s.TEN = false →
    s.agenda = l ++ rest → (∀ turn ∈ l, turn.letsRun = true) → stepsLeft s ≤ l.count .engine →
    ∃ t : State, steps l.length s = .next t ∧ t.agenda = rest ∧
      t.STATE = (if s.FIN then .done else .ready) ∧
      t.STEPCNT = s.STEPCNT + BitVec.ofNat 32 (stepsLeft s)

/-- Derived (43_commands.md R213, 20_memory.md R52, R55): reads never matter. Taking every read, by word index or by
byte address, out of a run leaves every element of the engine at the end as it was. -/
def Obligations.ReadsDoNotChangeARun : Prop :=
  ∀ (s t : State), steps s.agenda.length s = .next t →
    let quiet := s.agenda.filter fun turn => !turn.isRead
    ∃ t' : State, steps quiet.length { s with agenda := quiet } = .next t' ∧
      t'.architectural = t.architectural

-- ## Who writes what

/-- 10_state.md R22: the MD Buffer is written by INIT, ABORT and reset, which write the IV, and by block
completion, which adds `W` into it, and by nothing else. -/
def Obligations.OnlyThreeThingsWriteTheMdBuffer : Prop :=
  ∀ s t : State, step s = .next t → t.H ≠ s.H →
    (t = { s with agenda := s.agenda.tail }.freshFrom t.TEN t.STATE ∧
      (s.agenda.head? = some .reset ∨
        ∃ turn v i, s.agenda.head? = some turn ∧ turn.hostWrite = some (1, v) ∧
          decodeWord v = .command i ∧ (i = .abort ∨ ∃ ten, i = .init ten))) ∨
    (s.STATE = .busy ∧ s.I = 63 ∧ (s.agenda = [] ∨ s.agenda.head? = some .engine) ∧
      t.H = s.H.add (stepFn s.K s.S s.I s.W s.M) ∧ t.BLKCNT = s.BLKCNT + 1)

/-- Derived (20_memory.md R66): while BUSY the block buffer changes only at the Padder's own load of the second
padding block, unless the operation is abandoned. -/
def Obligations.BlockBufferIsStableWhileBusy : Prop :=
  ∀ s t : State, s.STATE = .busy → step s = .next t → t.M ≠ s.M →
    (s.I = 63 ∧ s.FIN = true ∧ s.PEND2 = true ∧ t.M = secondPadBlock s.BITLEN ∧ t.STATE = .busy) ∨
    (t = { s with agenda := s.agenda.tail }.freshFrom false .idle)

/-- Derived (43_commands.md R208): during BUSY a host turn leaves the operation as it is, or it is ABORT, or it
is an error. -/
def Obligations.HostCannotDisturbAnOperation : Prop :=
  ∀ s t : State, s.STATE = .busy → step s = .next t →
    (∃ turn, s.agenda.head? = some turn ∧ turn ≠ .engine ∧ turn ≠ .reset) →
    t.STATE = .error ∨
    t = { s with agenda := s.agenda.tail }.freshFrom false .idle ∨
    (t.architectural = s.architectural ∨ t.architectural = { s with TV := false }.architectural)

/-- Derived (70_reset_and_hazards.md R258; 10_state.md R38, R39): BITLEN changes only where a command of BLOCK,
FINAL, INIT or ABORT or the reset input takes effect, and BLKCNT only where INIT, ABORT or the reset input does or a
block completes. Each change is tied to its turn. -/
def Obligations.CountersChangeOnlyAtTheirEvents : Prop :=
  ∀ s t : State, step s = .next t →
    (t.BITLEN ≠ s.BITLEN →
      s.ClearedTo t ∨
      ∃ turn v, s.agenda.head? = some turn ∧ turn.hostWrite = some (1, v) ∧
        s.STATE = .ready ∧ t.STATE = .busy ∧
        ((decodeWord v = .command .block ∧ t.BITLEN = s.BITLEN + 512) ∨
          ∃ n, decodeWord v = .command (.final n) ∧
            t.BITLEN = s.BITLEN + BitVec.ofNat 64 (8 * n.toNat))) ∧
    (t.BLKCNT ≠ s.BLKCNT →
      s.ClearedTo t ∨
      (s.STATE = .busy ∧ s.I = 63 ∧ (s.agenda = [] ∨ s.agenda.head? = some .engine) ∧ t.I = 0 ∧
        t.BLKCNT = s.BLKCNT + 1))
end

