-- ==== Sys2Proof/Laws/Bits.lean ====
section
/-! SUPPORT. Laws of the byte and word shapes: reading an element back, bytes of a little-endian word,
bytes of a block, and that the bytes of a block determine it (spec/00_scope.md R10; spec/20_memory.md
R56, R57). -/

namespace Sys2Proof

theorem wordAt_of_lt {n : Nat} (file : Vector Word n) {k : Nat} (hk : k < n) :
    wordAt file k = file[k] := by
  simp [wordAt, hk]

theorem wordAt_words16 (f : Nat → Word) {k : Nat} (hk : k < 16) : wordAt (words16 f) k = f k := by
  interval_cases k <;> rfl

theorem wordAt_words8 (f : Nat → Word) {r : Nat} (hr : r < 8) : wordAt (words8 f) r = f r := by
  interval_cases r <;> rfl

/-- Two register files with the same elements are the same. -/
theorem words_ext {n : Nat} {p q : Vector Word n} (h : ∀ k, k < n → wordAt p k = wordAt q k) : p = q := by
  ext k hk
  have e := h k hk
  rw [wordAt_of_lt p hk, wordAt_of_lt q hk] at e
  rw [e]

theorem byteOf_le32 (b0 b1 b2 b3 : Byte) :
    byteOf (le32 b0 b1 b2 b3) 0 = b0 ∧ byteOf (le32 b0 b1 b2 b3) 1 = b1 ∧
    byteOf (le32 b0 b1 b2 b3) 2 = b2 ∧ byteOf (le32 b0 b1 b2 b3) 3 = b3 := by
  refine ⟨?_, ?_, ?_, ?_⟩ <;>
  · apply BitVec.eq_of_getLsbD_eq
    intro i hi
    simp only [byteOf, le32, BitVec.getLsbD_extractLsb', BitVec.getLsbD_append]
    interval_cases i <;> simp

/-- A word is the little-endian word of its bytes. -/
theorem le32_byteOf (w : Word) : le32 (byteOf w 0) (byteOf w 1) (byteOf w 2) (byteOf w 3) = w := by
  apply BitVec.eq_of_getLsbD_eq
  intro i hi
  simp only [byteOf, le32, BitVec.getLsbD_extractLsb', BitVec.getLsbD_append]
  interval_cases i <;> simp

namespace Machine

/-- A read of the buffer after a write gives the value written there and the old word elsewhere. -/
theorem wordAt_setWord (M : Vector Word 16) {k j : Nat} (v : Word) (hj : j < 16) :
    wordAt (setWord M k v) j = if j = k then v else wordAt M j := by
  rw [wordAt_of_lt _ hj, wordAt_of_lt _ hj, setWord, Vector.getElem_setIfInBounds]
  by_cases h : j = k
  · simp [h]
  · simp [h, Ne.symm h]

theorem blockByte_blockOfBytes (f : Nat → Byte) {j : Nat} (hj : j < 64) :
    blockByte (blockOfBytes f) j = f j := by
  have e : 4 * (j / 4) + j % 4 = j := by omega
  have h4 : j % 4 < 4 := by omega
  rw [blockByte, blockOfBytes, wordAt_words16 _ (by omega)]
  obtain ⟨h0, h1, h2, h3⟩ := byteOf_le32 (f (4 * (j / 4))) (f (4 * (j / 4) + 1)) (f (4 * (j / 4) + 2))
    (f (4 * (j / 4) + 3))
  generalize hm : j % 4 = m at *
  interval_cases m <;> simp_all

/-- A block is the block of its bytes. -/
theorem blockOfBytes_blockByte (M : Vector Word 16) : blockOfBytes (blockByte M) = M := by
  apply words_ext
  intro k hk
  rw [blockOfBytes, wordAt_words16 _ hk]
  have e (i : Nat) (hi : i < 4) : blockByte M (4 * k + i) = byteOf (wordAt M k) i := by
    rw [blockByte, show (4 * k + i) / 4 = k by omega, show (4 * k + i) % 4 = i by omega]
  rw [show 4 * k = 4 * k + 0 by omega, e 0 (by omega), e 1 (by omega), e 2 (by omega), e 3 (by omega)]
  exact le32_byteOf _

theorem blockOfBytes_congr {f g : Nat → Byte} (h : ∀ j, j < 64 → f j = g j) :
    blockOfBytes f = blockOfBytes g := by
  apply words_ext
  intro k hk
  simp only [blockOfBytes, wordAt_words16 _ hk]
  rw [h _ (by omega), h _ (by omega), h _ (by omega), h _ (by omega)]

/-- The bytes of a block determine it. -/
theorem block_ext {M N : Vector Word 16} (h : ∀ j, j < 64 → blockByte M j = blockByte N j) : M = N := by
  rw [← blockOfBytes_blockByte M, ← blockOfBytes_blockByte N]
  exact blockOfBytes_congr h

theorem blockByte_setWord (M : Vector Word 16) {k j : Nat} (v : Word) (hj : j < 64) :
    blockByte (setWord M k v) j = if j / 4 = k then byteOf v (j % 4) else blockByte M j := by
  rw [blockByte, wordAt_setWord _ _ (by omega)]
  split <;> rfl

theorem byteOf_lowHalf (v : DWord) {j : Nat} (hj : j < 4) : byteOf (lowHalf v) j = byteOf64 v j := by
  apply BitVec.eq_of_getLsbD_eq
  intro i hi
  simp only [byteOf, byteOf64, lowHalf, BitVec.getLsbD_extractLsb']
  simp [hi, show 8 * j + i < 32 by omega]

theorem byteOf_highHalf (v : DWord) {j : Nat} (hj : j < 4) :
    byteOf (highHalf v) j = byteOf64 v (j + 4) := by
  apply BitVec.eq_of_getLsbD_eq
  intro i hi
  simp only [byteOf, byteOf64, highHalf, BitVec.getLsbD_extractLsb']
  simp [hi, show 8 * j + i < 32 by omega, show 32 + (8 * j + i) = 8 * (j + 4) + i by omega]

/-- The length field is the last eight bytes of the block, least significant first (20_memory.md R57). -/
theorem blockByte_withLength (M : Vector Word 16) (bits : DWord) {j : Nat} (hj : j < 64) :
    blockByte (withLength M bits) j = if j < 56 then blockByte M j else byteOf64 bits (j - 56) := by
  rw [withLength, blockByte_setWord _ _ hj, blockByte_setWord _ _ hj]
  by_cases h15 : j / 4 = 15
  · rw [if_pos h15, if_neg (by omega), byteOf_highHalf _ (by omega), show j % 4 + 4 = j - 56 by omega]
  · by_cases h14 : j / 4 = 14
    · rw [if_neg h15, if_pos h14, if_neg (by omega), byteOf_lowHalf _ (by omega),
        show j % 4 = j - 56 by omega]
    · rw [if_neg h15, if_neg h14, if_pos (by omega)]

theorem blockByte_markTail (M : Vector Word 16) (n : Nat) {j : Nat} (hj : j < 64) :
    blockByte (markTail M n) j =
      if j < n then blockByte M j else if j = n then 0x80#8 else 0x00#8 :=
  blockByte_blockOfBytes _ hj

theorem blockByte_zero {j : Nat} (hj : j < 64) : blockByte (words16 fun _ => 0) j = 0x00#8 := by
  rw [blockByte, wordAt_words16 _ (by omega)]
  simp [byteOf]

/-- Every byte of the buffer after `pad_tail(N)` (40_padder.md R104). -/
theorem blockByte_paddedTail (M : Vector Word 16) (n : BitVec 6) (bits : DWord) {j : Nat} (hj : j < 64) :
    blockByte (paddedTail M n bits) j =
      if j < n.toNat then blockByte M j
      else if j = n.toNat then 0x80#8
      else if n.toNat ≤ 55 ∧ 56 ≤ j then byteOf64 bits (j - 56)
      else 0x00#8 := by
  by_cases h : n.toNat ≤ 55
  · rw [paddedTail, if_pos (by simpa [fitsOneBlock] using h), blockByte_withLength _ _ hj,
      blockByte_markTail _ _ hj]
    by_cases h56 : j < 56
    · rw [if_pos h56, if_neg (show ¬ (n.toNat ≤ 55 ∧ 56 ≤ j) by omega)]
    · rw [if_neg h56, if_neg (by omega), if_neg (by omega), if_pos (by omega)]
  · rw [paddedTail, if_neg (by simpa [fitsOneBlock] using h), blockByte_markTail _ _ hj,
      if_neg (show ¬ (n.toNat ≤ 55 ∧ 56 ≤ j) by omega)]

/-- Every byte of the second padding block (40_padder.md R106). -/
theorem blockByte_secondPadBlock (bits : DWord) {j : Nat} (hj : j < 64) :
    blockByte (secondPadBlock bits) j = if j < 56 then 0x00#8 else byteOf64 bits (j - 56) := by
  rw [secondPadBlock, blockByte_withLength _ _ hj, blockByte_zero hj]

end Machine

end Sys2Proof
end

