-- ==== Sys2Proof/Laws/Decode.lean ====
section
/-! SUPPORT. A command word and its five fields determine each other (spec/30_encoding.md R80), and the
encoder's words in terms of fields. -/

namespace Sys2Proof

/-- The word made of five fields, reserved bits 31:14 first (30_encoding.md R80). -/
def wordOfFields (f : CommandFields) : Word := f.reservedHigh ++ f.n ++ f.reservedLow ++ f.t ++ f.op

theorem wordOfFields_fieldsOfWord (v : Word) : wordOfFields (fieldsOfWord v) = v := by
  apply BitVec.eq_of_getLsbD_eq
  intro i hi
  simp only [wordOfFields, fieldsOfWord, BitVec.getLsbD_append, BitVec.getLsbD_extractLsb']
  interval_cases i <;> simp

theorem fieldsOfWord_wordOfFields (f : CommandFields) : fieldsOfWord (wordOfFields f) = f := by
  obtain ⟨op, t, lo, n, hi⟩ := f
  simp only [fieldsOfWord, wordOfFields, CommandFields.mk.injEq]
  refine ⟨?_, ?_, ?_, ?_, ?_⟩ <;>
  · apply BitVec.eq_of_getLsbD_eq
    intro i hi
    simp only [BitVec.getLsbD_append, BitVec.getLsbD_extractLsb']
    interval_cases i <;> simp

/-- Two words with the same fields are the same word. -/
theorem fieldsOfWord_inj {v w : Word} (h : fieldsOfWord v = fieldsOfWord w) : v = w := by
  rw [← wordOfFields_fieldsOfWord v, h, wordOfFields_fieldsOfWord]

/-- The encoder's word of a command is the word of the command's fields. -/
theorem encode_eq_wordOfFields (i : Instr) : encode i = wordOfFields i.fields := by
  cases i with
  | init t => cases t <;> decide
  | final n => revert n; decide
  | _ => decide

end Sys2Proof
end

