-- ==== Sys2Proof/Laws/State.lean ====
section
/-! SUPPORT. One lemma per field per named update of the state, each true by unfolding, so that no proof
unfolds a record update. The effect of each update is the rule named above its lemmas. -/

namespace Sys2Proof.Machine

open Sys2Proof

variable (s : State)

-- raiseError: 60_exceptions.md R230
@[simp] theorem raiseError_H (c : ErrCode) : (raiseError c s).H = s.H := rfl
@[simp] theorem raiseError_W (c : ErrCode) : (raiseError c s).W = s.W := rfl
@[simp] theorem raiseError_M (c : ErrCode) : (raiseError c s).M = s.M := rfl
@[simp] theorem raiseError_K (c : ErrCode) : (raiseError c s).K = s.K := rfl
@[simp] theorem raiseError_S (c : ErrCode) : (raiseError c s).S = s.S := rfl
@[simp] theorem raiseError_STATE (c : ErrCode) : (raiseError c s).STATE = .error := rfl
@[simp] theorem raiseError_I (c : ErrCode) : (raiseError c s).I = s.I := rfl
@[simp] theorem raiseError_FIN (c : ErrCode) : (raiseError c s).FIN = s.FIN := rfl
@[simp] theorem raiseError_PEND2 (c : ErrCode) : (raiseError c s).PEND2 = s.PEND2 := rfl
@[simp] theorem raiseError_TEN (c : ErrCode) : (raiseError c s).TEN = s.TEN := rfl
@[simp] theorem raiseError_TV (c : ErrCode) : (raiseError c s).TV = s.TV := rfl
@[simp] theorem raiseError_DV (c : ErrCode) : (raiseError c s).DV = s.DV := rfl
@[simp] theorem raiseError_ERR_CODE (c : ErrCode) : (raiseError c s).ERR_CODE = c := rfl
@[simp] theorem raiseError_SNAP (c : ErrCode) : (raiseError c s).SNAP = s.SNAP := rfl
@[simp] theorem raiseError_SNAP_IDX (c : ErrCode) : (raiseError c s).SNAP_IDX = s.SNAP_IDX := rfl
@[simp] theorem raiseError_STEPCNT (c : ErrCode) : (raiseError c s).STEPCNT = s.STEPCNT := rfl
@[simp] theorem raiseError_BITLEN (c : ErrCode) : (raiseError c s).BITLEN = s.BITLEN := rfl
@[simp] theorem raiseError_BLKCNT (c : ErrCode) : (raiseError c s).BLKCNT = s.BLKCNT := rfl
@[simp] theorem raiseError_DIG (c : ErrCode) : (raiseError c s).DIG = s.DIG := rfl
@[simp] theorem raiseError_HEX (c : ErrCode) : (raiseError c s).HEX = s.HEX := rfl
@[simp] theorem raiseError_agenda (c : ErrCode) : (raiseError c s).agenda = s.agenda := rfl
@[simp] theorem raiseError_replies (c : ErrCode) : (raiseError c s).replies = s.replies := rfl

-- clearMessageState: 43_commands.md R181
@[simp] theorem clearMessageState_H : (clearMessageState s).H = iv := rfl
@[simp] theorem clearMessageState_W : (clearMessageState s).W = Quad.zero := rfl
@[simp] theorem clearMessageState_M : (clearMessageState s).M = words16 fun _ => 0 := rfl
@[simp] theorem clearMessageState_K : (clearMessageState s).K = s.K := rfl
@[simp] theorem clearMessageState_S : (clearMessageState s).S = s.S := rfl
@[simp] theorem clearMessageState_STATE : (clearMessageState s).STATE = s.STATE := rfl
@[simp] theorem clearMessageState_I : (clearMessageState s).I = 0 := rfl
@[simp] theorem clearMessageState_FIN : (clearMessageState s).FIN = false := rfl
@[simp] theorem clearMessageState_PEND2 : (clearMessageState s).PEND2 = false := rfl
@[simp] theorem clearMessageState_TEN : (clearMessageState s).TEN = s.TEN := rfl
@[simp] theorem clearMessageState_TV : (clearMessageState s).TV = false := rfl
@[simp] theorem clearMessageState_DV : (clearMessageState s).DV = false := rfl
@[simp] theorem clearMessageState_ERR_CODE : (clearMessageState s).ERR_CODE = .none := rfl
@[simp] theorem clearMessageState_SNAP : (clearMessageState s).SNAP = Quad.zero := rfl
@[simp] theorem clearMessageState_SNAP_IDX : (clearMessageState s).SNAP_IDX = 0 := rfl
@[simp] theorem clearMessageState_STEPCNT : (clearMessageState s).STEPCNT = 0 := rfl
@[simp] theorem clearMessageState_BITLEN : (clearMessageState s).BITLEN = 0 := rfl
@[simp] theorem clearMessageState_BLKCNT : (clearMessageState s).BLKCNT = 0 := rfl
@[simp] theorem clearMessageState_DIG : (clearMessageState s).DIG = Quad.zero := rfl
@[simp] theorem clearMessageState_HEX : (clearMessageState s).HEX = words8 fun _ => 0 := rfl
@[simp] theorem clearMessageState_agenda : (clearMessageState s).agenda = s.agenda := rfl
@[simp] theorem clearMessageState_replies : (clearMessageState s).replies = s.replies := rfl

-- resetEffect: 70_reset_and_hazards.md R250
@[simp] theorem resetEffect_H : (resetEffect s).H = iv := rfl
@[simp] theorem resetEffect_W : (resetEffect s).W = Quad.zero := rfl
@[simp] theorem resetEffect_M : (resetEffect s).M = words16 fun _ => 0 := rfl
@[simp] theorem resetEffect_K : (resetEffect s).K = s.K := rfl
@[simp] theorem resetEffect_S : (resetEffect s).S = s.S := rfl
@[simp] theorem resetEffect_STATE : (resetEffect s).STATE = .idle := rfl
@[simp] theorem resetEffect_I : (resetEffect s).I = 0 := rfl
@[simp] theorem resetEffect_FIN : (resetEffect s).FIN = false := rfl
@[simp] theorem resetEffect_PEND2 : (resetEffect s).PEND2 = false := rfl
@[simp] theorem resetEffect_TEN : (resetEffect s).TEN = false := rfl
@[simp] theorem resetEffect_TV : (resetEffect s).TV = false := rfl
@[simp] theorem resetEffect_DV : (resetEffect s).DV = false := rfl
@[simp] theorem resetEffect_ERR_CODE : (resetEffect s).ERR_CODE = .none := rfl
@[simp] theorem resetEffect_SNAP : (resetEffect s).SNAP = Quad.zero := rfl
@[simp] theorem resetEffect_SNAP_IDX : (resetEffect s).SNAP_IDX = 0 := rfl
@[simp] theorem resetEffect_STEPCNT : (resetEffect s).STEPCNT = 0 := rfl
@[simp] theorem resetEffect_BITLEN : (resetEffect s).BITLEN = 0 := rfl
@[simp] theorem resetEffect_BLKCNT : (resetEffect s).BLKCNT = 0 := rfl
@[simp] theorem resetEffect_DIG : (resetEffect s).DIG = Quad.zero := rfl
@[simp] theorem resetEffect_HEX : (resetEffect s).HEX = words8 fun _ => 0 := rfl
@[simp] theorem resetEffect_agenda : (resetEffect s).agenda = s.agenda := rfl
@[simp] theorem resetEffect_replies : (resetEffect s).replies = s.replies := rfl

-- startBlock: 41_block_processor.md R133
@[simp] theorem startBlock_H : (startBlock s).H = s.H := rfl
@[simp] theorem startBlock_W : (startBlock s).W = s.H := rfl
@[simp] theorem startBlock_M : (startBlock s).M = s.M := rfl
@[simp] theorem startBlock_K : (startBlock s).K = s.K := rfl
@[simp] theorem startBlock_S : (startBlock s).S = s.S := rfl
@[simp] theorem startBlock_STATE : (startBlock s).STATE = s.STATE := rfl
@[simp] theorem startBlock_I : (startBlock s).I = 0 := rfl
@[simp] theorem startBlock_FIN : (startBlock s).FIN = s.FIN := rfl
@[simp] theorem startBlock_PEND2 : (startBlock s).PEND2 = s.PEND2 := rfl
@[simp] theorem startBlock_TEN : (startBlock s).TEN = s.TEN := rfl
@[simp] theorem startBlock_TV : (startBlock s).TV = s.TV := rfl
@[simp] theorem startBlock_DV : (startBlock s).DV = s.DV := rfl
@[simp] theorem startBlock_ERR_CODE : (startBlock s).ERR_CODE = s.ERR_CODE := rfl
@[simp] theorem startBlock_SNAP : (startBlock s).SNAP = s.SNAP := rfl
@[simp] theorem startBlock_SNAP_IDX : (startBlock s).SNAP_IDX = s.SNAP_IDX := rfl
@[simp] theorem startBlock_STEPCNT : (startBlock s).STEPCNT = s.STEPCNT := rfl
@[simp] theorem startBlock_BITLEN : (startBlock s).BITLEN = s.BITLEN := rfl
@[simp] theorem startBlock_BLKCNT : (startBlock s).BLKCNT = s.BLKCNT := rfl
@[simp] theorem startBlock_DIG : (startBlock s).DIG = s.DIG := rfl
@[simp] theorem startBlock_HEX : (startBlock s).HEX = s.HEX := rfl
@[simp] theorem startBlock_agenda : (startBlock s).agenda = s.agenda := rfl
@[simp] theorem startBlock_replies : (startBlock s).replies = s.replies := rfl

-- finishBlock: 41_block_processor.md R134
@[simp] theorem finishBlock_H : (finishBlock s).H = s.H.add s.W := rfl
@[simp] theorem finishBlock_W : (finishBlock s).W = s.W := rfl
@[simp] theorem finishBlock_M : (finishBlock s).M = s.M := rfl
@[simp] theorem finishBlock_K : (finishBlock s).K = s.K := rfl
@[simp] theorem finishBlock_S : (finishBlock s).S = s.S := rfl
@[simp] theorem finishBlock_STATE : (finishBlock s).STATE = s.STATE := rfl
@[simp] theorem finishBlock_I : (finishBlock s).I = 0 := rfl
@[simp] theorem finishBlock_FIN : (finishBlock s).FIN = s.FIN := rfl
@[simp] theorem finishBlock_PEND2 : (finishBlock s).PEND2 = s.PEND2 := rfl
@[simp] theorem finishBlock_TEN : (finishBlock s).TEN = s.TEN := rfl
@[simp] theorem finishBlock_TV : (finishBlock s).TV = s.TV := rfl
@[simp] theorem finishBlock_DV : (finishBlock s).DV = s.DV := rfl
@[simp] theorem finishBlock_ERR_CODE : (finishBlock s).ERR_CODE = s.ERR_CODE := rfl
@[simp] theorem finishBlock_SNAP : (finishBlock s).SNAP = s.SNAP := rfl
@[simp] theorem finishBlock_SNAP_IDX : (finishBlock s).SNAP_IDX = s.SNAP_IDX := rfl
@[simp] theorem finishBlock_STEPCNT : (finishBlock s).STEPCNT = s.STEPCNT := rfl
@[simp] theorem finishBlock_BITLEN : (finishBlock s).BITLEN = s.BITLEN := rfl
@[simp] theorem finishBlock_BLKCNT : (finishBlock s).BLKCNT = s.BLKCNT + 1 := rfl
@[simp] theorem finishBlock_DIG : (finishBlock s).DIG = s.DIG := rfl
@[simp] theorem finishBlock_HEX : (finishBlock s).HEX = s.HEX := rfl
@[simp] theorem finishBlock_agenda : (finishBlock s).agenda = s.agenda := rfl
@[simp] theorem finishBlock_replies : (finishBlock s).replies = s.replies := rfl

-- captureSnapshot: 41_block_processor.md R135
@[simp] theorem captureSnapshot_H : (captureSnapshot s).H = s.H := rfl
@[simp] theorem captureSnapshot_W : (captureSnapshot s).W = s.W := rfl
@[simp] theorem captureSnapshot_M : (captureSnapshot s).M = s.M := rfl
@[simp] theorem captureSnapshot_K : (captureSnapshot s).K = s.K := rfl
@[simp] theorem captureSnapshot_S : (captureSnapshot s).S = s.S := rfl
@[simp] theorem captureSnapshot_STATE : (captureSnapshot s).STATE = s.STATE := rfl
@[simp] theorem captureSnapshot_I : (captureSnapshot s).I = s.I := rfl
@[simp] theorem captureSnapshot_FIN : (captureSnapshot s).FIN = s.FIN := rfl
@[simp] theorem captureSnapshot_PEND2 : (captureSnapshot s).PEND2 = s.PEND2 := rfl
@[simp] theorem captureSnapshot_TEN : (captureSnapshot s).TEN = s.TEN := rfl
@[simp] theorem captureSnapshot_TV : (captureSnapshot s).TV = true := rfl
@[simp] theorem captureSnapshot_DV : (captureSnapshot s).DV = s.DV := rfl
@[simp] theorem captureSnapshot_ERR_CODE : (captureSnapshot s).ERR_CODE = s.ERR_CODE := rfl
@[simp] theorem captureSnapshot_SNAP : (captureSnapshot s).SNAP = s.W := rfl
@[simp] theorem captureSnapshot_SNAP_IDX : (captureSnapshot s).SNAP_IDX = s.STEPCNT := rfl
@[simp] theorem captureSnapshot_STEPCNT : (captureSnapshot s).STEPCNT = s.STEPCNT := rfl
@[simp] theorem captureSnapshot_BITLEN : (captureSnapshot s).BITLEN = s.BITLEN := rfl
@[simp] theorem captureSnapshot_BLKCNT : (captureSnapshot s).BLKCNT = s.BLKCNT := rfl
@[simp] theorem captureSnapshot_DIG : (captureSnapshot s).DIG = s.DIG := rfl
@[simp] theorem captureSnapshot_HEX : (captureSnapshot s).HEX = s.HEX := rfl
@[simp] theorem captureSnapshot_agenda : (captureSnapshot s).agenda = s.agenda := rfl
@[simp] theorem captureSnapshot_replies : (captureSnapshot s).replies = s.replies := rfl

-- padTail: 40_padder.md R104
@[simp] theorem padTail_H (n : BitVec 6) : (padTail n s).H = s.H := rfl
@[simp] theorem padTail_W (n : BitVec 6) : (padTail n s).W = s.W := rfl
@[simp] theorem padTail_M (n : BitVec 6) : (padTail n s).M = paddedTail s.M n s.BITLEN := rfl
@[simp] theorem padTail_K (n : BitVec 6) : (padTail n s).K = s.K := rfl
@[simp] theorem padTail_S (n : BitVec 6) : (padTail n s).S = s.S := rfl
@[simp] theorem padTail_STATE (n : BitVec 6) : (padTail n s).STATE = s.STATE := rfl
@[simp] theorem padTail_I (n : BitVec 6) : (padTail n s).I = s.I := rfl
@[simp] theorem padTail_FIN (n : BitVec 6) : (padTail n s).FIN = s.FIN := rfl
@[simp] theorem padTail_PEND2 (n : BitVec 6) : (padTail n s).PEND2 = !fitsOneBlock n := rfl
@[simp] theorem padTail_TEN (n : BitVec 6) : (padTail n s).TEN = s.TEN := rfl
@[simp] theorem padTail_TV (n : BitVec 6) : (padTail n s).TV = s.TV := rfl
@[simp] theorem padTail_DV (n : BitVec 6) : (padTail n s).DV = s.DV := rfl
@[simp] theorem padTail_ERR_CODE (n : BitVec 6) : (padTail n s).ERR_CODE = s.ERR_CODE := rfl
@[simp] theorem padTail_SNAP (n : BitVec 6) : (padTail n s).SNAP = s.SNAP := rfl
@[simp] theorem padTail_SNAP_IDX (n : BitVec 6) : (padTail n s).SNAP_IDX = s.SNAP_IDX := rfl
@[simp] theorem padTail_STEPCNT (n : BitVec 6) : (padTail n s).STEPCNT = s.STEPCNT := rfl
@[simp] theorem padTail_BITLEN (n : BitVec 6) : (padTail n s).BITLEN = s.BITLEN := rfl
@[simp] theorem padTail_BLKCNT (n : BitVec 6) : (padTail n s).BLKCNT = s.BLKCNT := rfl
@[simp] theorem padTail_DIG (n : BitVec 6) : (padTail n s).DIG = s.DIG := rfl
@[simp] theorem padTail_HEX (n : BitVec 6) : (padTail n s).HEX = s.HEX := rfl
@[simp] theorem padTail_agenda (n : BitVec 6) : (padTail n s).agenda = s.agenda := rfl
@[simp] theorem padTail_replies (n : BitVec 6) : (padTail n s).replies = s.replies := rfl

-- loadPad2: 40_padder.md R106
@[simp] theorem loadPad2_H : (loadPad2 s).H = s.H := rfl
@[simp] theorem loadPad2_W : (loadPad2 s).W = s.W := rfl
@[simp] theorem loadPad2_M : (loadPad2 s).M = secondPadBlock s.BITLEN := rfl
@[simp] theorem loadPad2_K : (loadPad2 s).K = s.K := rfl
@[simp] theorem loadPad2_S : (loadPad2 s).S = s.S := rfl
@[simp] theorem loadPad2_STATE : (loadPad2 s).STATE = s.STATE := rfl
@[simp] theorem loadPad2_I : (loadPad2 s).I = s.I := rfl
@[simp] theorem loadPad2_FIN : (loadPad2 s).FIN = s.FIN := rfl
@[simp] theorem loadPad2_PEND2 : (loadPad2 s).PEND2 = false := rfl
@[simp] theorem loadPad2_TEN : (loadPad2 s).TEN = s.TEN := rfl
@[simp] theorem loadPad2_TV : (loadPad2 s).TV = s.TV := rfl
@[simp] theorem loadPad2_DV : (loadPad2 s).DV = s.DV := rfl
@[simp] theorem loadPad2_ERR_CODE : (loadPad2 s).ERR_CODE = s.ERR_CODE := rfl
@[simp] theorem loadPad2_SNAP : (loadPad2 s).SNAP = s.SNAP := rfl
@[simp] theorem loadPad2_SNAP_IDX : (loadPad2 s).SNAP_IDX = s.SNAP_IDX := rfl
@[simp] theorem loadPad2_STEPCNT : (loadPad2 s).STEPCNT = s.STEPCNT := rfl
@[simp] theorem loadPad2_BITLEN : (loadPad2 s).BITLEN = s.BITLEN := rfl
@[simp] theorem loadPad2_BLKCNT : (loadPad2 s).BLKCNT = s.BLKCNT := rfl
@[simp] theorem loadPad2_DIG : (loadPad2 s).DIG = s.DIG := rfl
@[simp] theorem loadPad2_HEX : (loadPad2 s).HEX = s.HEX := rfl
@[simp] theorem loadPad2_agenda : (loadPad2 s).agenda = s.agenda := rfl
@[simp] theorem loadPad2_replies : (loadPad2 s).replies = s.replies := rfl

-- encodeAction: 42_digest_encoder.md R165
@[simp] theorem encodeAction_H : (encodeAction s).H = s.H := rfl
@[simp] theorem encodeAction_W : (encodeAction s).W = s.W := rfl
@[simp] theorem encodeAction_M : (encodeAction s).M = s.M := rfl
@[simp] theorem encodeAction_K : (encodeAction s).K = s.K := rfl
@[simp] theorem encodeAction_S : (encodeAction s).S = s.S := rfl
@[simp] theorem encodeAction_STATE : (encodeAction s).STATE = s.STATE := rfl
@[simp] theorem encodeAction_I : (encodeAction s).I = s.I := rfl
@[simp] theorem encodeAction_FIN : (encodeAction s).FIN = s.FIN := rfl
@[simp] theorem encodeAction_PEND2 : (encodeAction s).PEND2 = s.PEND2 := rfl
@[simp] theorem encodeAction_TEN : (encodeAction s).TEN = s.TEN := rfl
@[simp] theorem encodeAction_TV : (encodeAction s).TV = s.TV := rfl
@[simp] theorem encodeAction_DV : (encodeAction s).DV = true := rfl
@[simp] theorem encodeAction_ERR_CODE : (encodeAction s).ERR_CODE = s.ERR_CODE := rfl
@[simp] theorem encodeAction_SNAP : (encodeAction s).SNAP = s.SNAP := rfl
@[simp] theorem encodeAction_SNAP_IDX : (encodeAction s).SNAP_IDX = s.SNAP_IDX := rfl
@[simp] theorem encodeAction_STEPCNT : (encodeAction s).STEPCNT = s.STEPCNT := rfl
@[simp] theorem encodeAction_BITLEN : (encodeAction s).BITLEN = s.BITLEN := rfl
@[simp] theorem encodeAction_BLKCNT : (encodeAction s).BLKCNT = s.BLKCNT := rfl
@[simp] theorem encodeAction_DIG : (encodeAction s).DIG = digWords s.H := rfl
@[simp] theorem encodeAction_HEX : (encodeAction s).HEX = hexWords s.H := rfl
@[simp] theorem encodeAction_agenda : (encodeAction s).agenda = s.agenda := rfl
@[simp] theorem encodeAction_replies : (encodeAction s).replies = s.replies := rfl

-- completeBlock: 43_commands.md R202
@[simp] theorem completeBlock_H : (completeBlock s).H = s.H := rfl
@[simp] theorem completeBlock_W : (completeBlock s).W = s.W := rfl
@[simp] theorem completeBlock_M : (completeBlock s).M = s.M := rfl
@[simp] theorem completeBlock_K : (completeBlock s).K = s.K := rfl
@[simp] theorem completeBlock_S : (completeBlock s).S = s.S := rfl
@[simp] theorem completeBlock_STATE : (completeBlock s).STATE = .ready := rfl
@[simp] theorem completeBlock_I : (completeBlock s).I = s.I := rfl
@[simp] theorem completeBlock_FIN : (completeBlock s).FIN = s.FIN := rfl
@[simp] theorem completeBlock_PEND2 : (completeBlock s).PEND2 = s.PEND2 := rfl
@[simp] theorem completeBlock_TEN : (completeBlock s).TEN = s.TEN := rfl
@[simp] theorem completeBlock_TV : (completeBlock s).TV = s.TV := rfl
@[simp] theorem completeBlock_DV : (completeBlock s).DV = s.DV := rfl
@[simp] theorem completeBlock_ERR_CODE : (completeBlock s).ERR_CODE = s.ERR_CODE := rfl
@[simp] theorem completeBlock_SNAP : (completeBlock s).SNAP = s.SNAP := rfl
@[simp] theorem completeBlock_SNAP_IDX : (completeBlock s).SNAP_IDX = s.SNAP_IDX := rfl
@[simp] theorem completeBlock_STEPCNT : (completeBlock s).STEPCNT = s.STEPCNT := rfl
@[simp] theorem completeBlock_BITLEN : (completeBlock s).BITLEN = s.BITLEN := rfl
@[simp] theorem completeBlock_BLKCNT : (completeBlock s).BLKCNT = s.BLKCNT := rfl
@[simp] theorem completeBlock_DIG : (completeBlock s).DIG = s.DIG := rfl
@[simp] theorem completeBlock_HEX : (completeBlock s).HEX = s.HEX := rfl
@[simp] theorem completeBlock_agenda : (completeBlock s).agenda = s.agenda := rfl
@[simp] theorem completeBlock_replies : (completeBlock s).replies = s.replies := rfl

-- nextPadBlock: 43_commands.md R203
@[simp] theorem nextPadBlock_H : (nextPadBlock s).H = s.H := rfl
@[simp] theorem nextPadBlock_W : (nextPadBlock s).W = s.H := rfl
@[simp] theorem nextPadBlock_M : (nextPadBlock s).M = secondPadBlock s.BITLEN := rfl
@[simp] theorem nextPadBlock_K : (nextPadBlock s).K = s.K := rfl
@[simp] theorem nextPadBlock_S : (nextPadBlock s).S = s.S := rfl
@[simp] theorem nextPadBlock_STATE : (nextPadBlock s).STATE = s.STATE := rfl
@[simp] theorem nextPadBlock_I : (nextPadBlock s).I = 0 := rfl
@[simp] theorem nextPadBlock_FIN : (nextPadBlock s).FIN = s.FIN := rfl
@[simp] theorem nextPadBlock_PEND2 : (nextPadBlock s).PEND2 = false := rfl
@[simp] theorem nextPadBlock_TEN : (nextPadBlock s).TEN = s.TEN := rfl
@[simp] theorem nextPadBlock_TV : (nextPadBlock s).TV = s.TV := rfl
@[simp] theorem nextPadBlock_DV : (nextPadBlock s).DV = s.DV := rfl
@[simp] theorem nextPadBlock_ERR_CODE : (nextPadBlock s).ERR_CODE = s.ERR_CODE := rfl
@[simp] theorem nextPadBlock_SNAP : (nextPadBlock s).SNAP = s.SNAP := rfl
@[simp] theorem nextPadBlock_SNAP_IDX : (nextPadBlock s).SNAP_IDX = s.SNAP_IDX := rfl
@[simp] theorem nextPadBlock_STEPCNT : (nextPadBlock s).STEPCNT = s.STEPCNT := rfl
@[simp] theorem nextPadBlock_BITLEN : (nextPadBlock s).BITLEN = s.BITLEN := rfl
@[simp] theorem nextPadBlock_BLKCNT : (nextPadBlock s).BLKCNT = s.BLKCNT := rfl
@[simp] theorem nextPadBlock_DIG : (nextPadBlock s).DIG = s.DIG := rfl
@[simp] theorem nextPadBlock_HEX : (nextPadBlock s).HEX = s.HEX := rfl
@[simp] theorem nextPadBlock_agenda : (nextPadBlock s).agenda = s.agenda := rfl
@[simp] theorem nextPadBlock_replies : (nextPadBlock s).replies = s.replies := rfl

-- completeFinal: 43_commands.md R204
@[simp] theorem completeFinal_H : (completeFinal s).H = s.H := rfl
@[simp] theorem completeFinal_W : (completeFinal s).W = s.W := rfl
@[simp] theorem completeFinal_M : (completeFinal s).M = s.M := rfl
@[simp] theorem completeFinal_K : (completeFinal s).K = s.K := rfl
@[simp] theorem completeFinal_S : (completeFinal s).S = s.S := rfl
@[simp] theorem completeFinal_STATE : (completeFinal s).STATE = .done := rfl
@[simp] theorem completeFinal_I : (completeFinal s).I = s.I := rfl
@[simp] theorem completeFinal_FIN : (completeFinal s).FIN = false := rfl
@[simp] theorem completeFinal_PEND2 : (completeFinal s).PEND2 = s.PEND2 := rfl
@[simp] theorem completeFinal_TEN : (completeFinal s).TEN = s.TEN := rfl
@[simp] theorem completeFinal_TV : (completeFinal s).TV = s.TV := rfl
@[simp] theorem completeFinal_DV : (completeFinal s).DV = true := rfl
@[simp] theorem completeFinal_ERR_CODE : (completeFinal s).ERR_CODE = s.ERR_CODE := rfl
@[simp] theorem completeFinal_SNAP : (completeFinal s).SNAP = s.SNAP := rfl
@[simp] theorem completeFinal_SNAP_IDX : (completeFinal s).SNAP_IDX = s.SNAP_IDX := rfl
@[simp] theorem completeFinal_STEPCNT : (completeFinal s).STEPCNT = s.STEPCNT := rfl
@[simp] theorem completeFinal_BITLEN : (completeFinal s).BITLEN = s.BITLEN := rfl
@[simp] theorem completeFinal_BLKCNT : (completeFinal s).BLKCNT = s.BLKCNT := rfl
@[simp] theorem completeFinal_DIG : (completeFinal s).DIG = digWords s.H := rfl
@[simp] theorem completeFinal_HEX : (completeFinal s).HEX = hexWords s.H := rfl
@[simp] theorem completeFinal_agenda : (completeFinal s).agenda = s.agenda := rfl
@[simp] theorem completeFinal_replies : (completeFinal s).replies = s.replies := rfl

-- memRead: 20_memory.md R55
@[simp] theorem memRead_H (idx : BitVec 6) : (memRead idx s).H = s.H := rfl
@[simp] theorem memRead_W (idx : BitVec 6) : (memRead idx s).W = s.W := rfl
@[simp] theorem memRead_M (idx : BitVec 6) : (memRead idx s).M = s.M := rfl
@[simp] theorem memRead_K (idx : BitVec 6) : (memRead idx s).K = s.K := rfl
@[simp] theorem memRead_S (idx : BitVec 6) : (memRead idx s).S = s.S := rfl
@[simp] theorem memRead_STATE (idx : BitVec 6) : (memRead idx s).STATE = s.STATE := rfl
@[simp] theorem memRead_I (idx : BitVec 6) : (memRead idx s).I = s.I := rfl
@[simp] theorem memRead_FIN (idx : BitVec 6) : (memRead idx s).FIN = s.FIN := rfl
@[simp] theorem memRead_PEND2 (idx : BitVec 6) : (memRead idx s).PEND2 = s.PEND2 := rfl
@[simp] theorem memRead_TEN (idx : BitVec 6) : (memRead idx s).TEN = s.TEN := rfl
@[simp] theorem memRead_TV (idx : BitVec 6) : (memRead idx s).TV = s.TV := rfl
@[simp] theorem memRead_DV (idx : BitVec 6) : (memRead idx s).DV = s.DV := rfl
@[simp] theorem memRead_ERR_CODE (idx : BitVec 6) : (memRead idx s).ERR_CODE = s.ERR_CODE := rfl
@[simp] theorem memRead_SNAP (idx : BitVec 6) : (memRead idx s).SNAP = s.SNAP := rfl
@[simp] theorem memRead_SNAP_IDX (idx : BitVec 6) : (memRead idx s).SNAP_IDX = s.SNAP_IDX := rfl
@[simp] theorem memRead_STEPCNT (idx : BitVec 6) : (memRead idx s).STEPCNT = s.STEPCNT := rfl
@[simp] theorem memRead_BITLEN (idx : BitVec 6) : (memRead idx s).BITLEN = s.BITLEN := rfl
@[simp] theorem memRead_BLKCNT (idx : BitVec 6) : (memRead idx s).BLKCNT = s.BLKCNT := rfl
@[simp] theorem memRead_DIG (idx : BitVec 6) : (memRead idx s).DIG = s.DIG := rfl
@[simp] theorem memRead_HEX (idx : BitVec 6) : (memRead idx s).HEX = s.HEX := rfl
@[simp] theorem memRead_agenda (idx : BitVec 6) : (memRead idx s).agenda = s.agenda := rfl
@[simp] theorem memRead_replies (idx : BitVec 6) : (memRead idx s).replies = s.replies ++ [⟨idx, readPort s idx⟩] := rfl

-- enqueueCommand: 30_encoding.md R81
@[simp] theorem enqueueCommand_H (v : Word) : (enqueueCommand v s).H = s.H := rfl
@[simp] theorem enqueueCommand_W (v : Word) : (enqueueCommand v s).W = s.W := rfl
@[simp] theorem enqueueCommand_M (v : Word) : (enqueueCommand v s).M = s.M := rfl
@[simp] theorem enqueueCommand_K (v : Word) : (enqueueCommand v s).K = s.K := rfl
@[simp] theorem enqueueCommand_S (v : Word) : (enqueueCommand v s).S = s.S := rfl
@[simp] theorem enqueueCommand_STATE (v : Word) : (enqueueCommand v s).STATE = s.STATE := rfl
@[simp] theorem enqueueCommand_I (v : Word) : (enqueueCommand v s).I = s.I := rfl
@[simp] theorem enqueueCommand_FIN (v : Word) : (enqueueCommand v s).FIN = s.FIN := rfl
@[simp] theorem enqueueCommand_PEND2 (v : Word) : (enqueueCommand v s).PEND2 = s.PEND2 := rfl
@[simp] theorem enqueueCommand_TEN (v : Word) : (enqueueCommand v s).TEN = s.TEN := rfl
@[simp] theorem enqueueCommand_TV (v : Word) : (enqueueCommand v s).TV = s.TV := rfl
@[simp] theorem enqueueCommand_DV (v : Word) : (enqueueCommand v s).DV = s.DV := rfl
@[simp] theorem enqueueCommand_ERR_CODE (v : Word) : (enqueueCommand v s).ERR_CODE = s.ERR_CODE := rfl
@[simp] theorem enqueueCommand_SNAP (v : Word) : (enqueueCommand v s).SNAP = s.SNAP := rfl
@[simp] theorem enqueueCommand_SNAP_IDX (v : Word) : (enqueueCommand v s).SNAP_IDX = s.SNAP_IDX := rfl
@[simp] theorem enqueueCommand_STEPCNT (v : Word) : (enqueueCommand v s).STEPCNT = s.STEPCNT := rfl
@[simp] theorem enqueueCommand_BITLEN (v : Word) : (enqueueCommand v s).BITLEN = s.BITLEN := rfl
@[simp] theorem enqueueCommand_BLKCNT (v : Word) : (enqueueCommand v s).BLKCNT = s.BLKCNT := rfl
@[simp] theorem enqueueCommand_DIG (v : Word) : (enqueueCommand v s).DIG = s.DIG := rfl
@[simp] theorem enqueueCommand_HEX (v : Word) : (enqueueCommand v s).HEX = s.HEX := rfl
@[simp] theorem enqueueCommand_agenda (v : Word) : (enqueueCommand v s).agenda = .write 1 v :: s.agenda := rfl
@[simp] theorem enqueueCommand_replies (v : Word) : (enqueueCommand v s).replies = s.replies := rfl

end Sys2Proof.Machine
end

