-- ==== Sys2Proof/Laws/Ops.lean ====
section
/-! SUPPORT. What each shared operation can answer, said once: the guard of the commands, the
buffer write, the port write and the engine step (spec/43_commands.md R180 to R205; spec/20_memory.md
R61). -/

namespace Sys2Proof.Machine

open Sys2Proof

-- ## The guard of the commands

variable {s t : State} {allowed : Bool} {code : ErrCode} {effect : State → State}

theorem command_ignored (he : s.STATE = .error) : command allowed code effect s = .next s := by
  simp [command, he]

theorem command_performed (he : s.STATE ≠ .error) (ha : allowed = true) :
    command allowed code effect s = .next (effect s) := by
  simp [command, he, ha]

theorem command_rejected (he : s.STATE ≠ .error) (ha : allowed = false) :
    command allowed code effect s = .next (raiseError code s) := by
  simp [command, he, ha]

/-- Everything the guard can answer (43_commands.md R182). -/
theorem command_cases (h : command allowed code effect s = .next t) :
    (s.STATE = .error ∧ t = s) ∨
    (s.STATE ≠ .error ∧ allowed = true ∧ t = effect s) ∨
    (s.STATE ≠ .error ∧ allowed = false ∧ t = raiseError code s) := by
  unfold command at h
  split at h
  · exact .inl ⟨‹_›, by simpa using h.symm⟩
  · split at h
    · exact .inr (.inl ⟨‹_›, ‹_›, by simpa using h.symm⟩)
    · exact .inr (.inr ⟨‹_›, by simpa using ‹¬ allowed = true›, by simpa using h.symm⟩)

/-- No command stops the machine (60_exceptions.md R230). -/
theorem command_next (allowed : Bool) (code : ErrCode) (effect : State → State) (s : State) :
    ∃ t, command allowed code effect s = .next t := by
  unfold command
  split
  · exact ⟨_, rfl⟩
  · split <;> exact ⟨_, rfl⟩

theorem exec_next (i : Instr) (s : State) : ∃ t, exec i s = .next t := by
  cases i with
  | nop => unfold exec execNop; exact command_next ..
  | init t => unfold exec execInit; exact command_next ..
  | block => unfold exec execBlock; exact command_next ..
  | final n => unfold exec execFinal; exact command_next ..
  | encode => unfold exec execEncode; exact command_next ..
  | tack => unfold exec execTack; exact command_next ..
  | abort => exact ⟨_, rfl⟩

/-- In ERROR every decoded command but ABORT is ignored (43_commands.md R182). -/
theorem exec_ignored {i : Instr} (he : s.STATE = .error) (hi : i ≠ .abort) : exec i s = .next s := by
  cases i with
  | nop => unfold exec execNop; exact command_ignored he
  | init t => unfold exec execInit; exact command_ignored he
  | block => unfold exec execBlock; exact command_ignored he
  | final n => unfold exec execFinal; exact command_ignored he
  | encode => unfold exec execEncode; exact command_ignored he
  | tack => unfold exec execTack; exact command_ignored he
  | abort => exact absurd rfl hi

-- ## The port write

theorem writeM_busy {k : Nat} {v : Word} (h : s.STATE = .busy) : writeM k v s = raiseError .writeBusy s := by
  simp [writeM, h]

theorem writeM_performed {k : Nat} {v : Word} (h : s.STATE ≠ .busy) :
    writeM k v s = { s with M := setWord s.M k v } := by
  simp [writeM, h]

theorem memWrite_error {idx : BitVec 6} {v : Word} (he : s.STATE = .error) (h : ¬ (idx = 1 ∧ v = 0x0000000F#32)) :
    memWrite idx v s = .next s := by
  simp only [memWrite, if_pos he, if_neg h]

theorem memWrite_error_abort (he : s.STATE = .error) :
    memWrite 1 0x0000000F#32 s = .next (resetEffect s) := by
  simp [memWrite, if_pos he, exec, execAbort]

theorem memWrite_command {v : Word} (he : s.STATE ≠ .error) : memWrite 1 v s = executeCommand v s := by
  simp [memWrite, he]

theorem memWrite_buffer {idx : BitVec 6} {v : Word} (he : s.STATE ≠ .error) (h : 48 ≤ idx.toNat) :
    memWrite idx v s = .next (writeM (idx.toNat - 48) v s) := by
  have h1 : idx ≠ 1 := by rintro rfl; simp at h
  simp only [memWrite, if_neg he, if_neg h1, if_pos h]

theorem memWrite_badWrite {idx : BitVec 6} {v : Word} (he : s.STATE ≠ .error) (h1 : idx ≠ 1)
    (h : idx.toNat < 48) : memWrite idx v s = .next (raiseError .badWrite s) := by
  simp only [memWrite, if_neg he, if_neg h1, if_neg (Nat.not_le.mpr h)]

theorem executeCommand_next (v : Word) (s : State) : ∃ t, executeCommand v s = .next t := by
  unfold executeCommand
  split
  · exact exec_next ..
  · exact ⟨_, rfl⟩

/-- A port write always has a next state: errors are next states (60_exceptions.md R230). -/
theorem memWrite_next (idx : BitVec 6) (v : Word) (s : State) : ∃ t, memWrite idx v s = .next t := by
  by_cases he : s.STATE = .error
  · by_cases h : idx = 1 ∧ v = 0x0000000F#32
    · obtain ⟨rfl, rfl⟩ := h
      exact ⟨_, memWrite_error_abort he⟩
    · exact ⟨_, memWrite_error he h⟩
  · by_cases h1 : idx = 1
    · subst h1
      rw [memWrite_command he]
      exact executeCommand_next ..
    · by_cases h48 : 48 ≤ idx.toNat
      · exact ⟨_, memWrite_buffer he h48⟩
      · exact ⟨_, memWrite_badWrite he h1 (by omega)⟩

-- ## The engine step

theorem advanceStep_eq (s : State) :
    advanceStep s =
      { s with
        W := stepFn s.K s.S s.I s.W s.M, STEPCNT := s.STEPCNT + 1
        SNAP := if s.TEN then stepFn s.K s.S s.I s.W s.M else s.SNAP
        SNAP_IDX := if s.TEN then s.STEPCNT + 1 else s.SNAP_IDX
        TV := if s.TEN then true else s.TV } := by
  cases h : s.TEN <;> simp [advanceStep, captureSnapshot, h]

/-- Steps 0 to 62 only advance (43_commands.md R201). -/
theorem engineStep_within (h : s.I.toNat < 63) :
    engineStep s = { advanceStep s with I := s.I + 1 } := by
  simp [engineStep, h]

/-- Step 63 ends the block (43_commands.md R201). -/
theorem engineStep_last (h : ¬ s.I.toNat < 63) :
    engineStep s = completeOperation (finishBlock (advanceStep s)) := by
  simp [engineStep, h]

theorem completeOperation_block (h : s.FIN = false) : completeOperation s = completeBlock s := by
  simp [completeOperation, h]

theorem completeOperation_pad2 (h : s.FIN = true) (hp : s.PEND2 = true) :
    completeOperation s = nextPadBlock s := by
  simp [completeOperation, h, hp]

theorem completeOperation_final (h : s.FIN = true) (hp : s.PEND2 = false) :
    completeOperation s = completeFinal s := by
  simp [completeOperation, h, hp]

/-- Everything one engine step can be (43_commands.md R201 to R204). -/
theorem engineStep_cases (s : State) :
    (s.I.toNat < 63 ∧ engineStep s = { advanceStep s with I := s.I + 1 }) ∨
    (s.I = 63 ∧ s.FIN = false ∧ engineStep s = completeBlock (finishBlock (advanceStep s))) ∨
    (s.I = 63 ∧ s.FIN = true ∧ s.PEND2 = true ∧
      engineStep s = nextPadBlock (finishBlock (advanceStep s))) ∨
    (s.I = 63 ∧ s.FIN = true ∧ s.PEND2 = false ∧
      engineStep s = completeFinal (finishBlock (advanceStep s))) := by
  by_cases h : s.I.toNat < 63
  · exact .inl ⟨h, engineStep_within h⟩
  · have hI : s.I = 63 := by
      have := s.I.isLt
      apply BitVec.eq_of_toNat_eq
      simp
      omega
    have e : (finishBlock (advanceStep s)).FIN = s.FIN ∧ (finishBlock (advanceStep s)).PEND2 = s.PEND2 := by
      simp [advanceStep_eq]
    rw [engineStep_last h]
    cases hF : s.FIN
    · exact .inr (.inl ⟨hI, rfl, completeOperation_block (e.1.trans hF)⟩)
    · cases hP : s.PEND2
      · exact .inr (.inr (.inr ⟨hI, rfl, rfl, completeOperation_final (e.1.trans hF) (e.2.trans hP)⟩))
      · exact .inr (.inr (.inl ⟨hI, rfl, rfl, completeOperation_pad2 (e.1.trans hF) (e.2.trans hP)⟩))

theorem engineTurn_enabled (h : stepEnabled s = true) : engineTurn s = engineStep s := by
  simp [engineTurn, h]

theorem engineTurn_disabled (h : stepEnabled s = false) : engineTurn s = s := by
  simp [engineTurn, h]

theorem stepEnabled_iff : stepEnabled s = true ↔ s.STATE = .busy ∧ ¬ (s.TEN = true ∧ s.TV = true) := by
  unfold stepEnabled
  generalize s.TEN = a
  generalize s.TV = b
  cases a <;> cases b <;> simp

-- ## One step

theorem step_nil (h : s.agenda = []) : step s = .next (engineTurn s) := by
  simp [step, h]

theorem step_cons {turn : Turn} {rest : List Turn} (h : s.agenda = turn :: rest) :
    step s = runTurn turn { s with agenda := rest } := by
  simp [step, h]

end Sys2Proof.Machine
end

