-- ==== Sys2Proof/Laws/PerInstr.lean ====
section
/-! SUPPORT. Statements made constructor by constructor (LAWS.json). -/

namespace Sys2Proof.Laws.LegalFields

open Sys2Proof

/-- The fields of a command pass every check of the decoder, one by one (spec/30_encoding.md R84). -/
def Statement (i : Instr) : Prop :=
  i.fields.opcodeLegal = true ∧ i.fields.reservedZero = true ∧ i.fields.traceAllowed = true ∧
    i.fields.tailAllowed = true

theorem nop : Statement .nop := ⟨rfl, rfl, rfl, rfl⟩

theorem init (t : Bool) : Statement (.init t) := by
  cases t <;> exact ⟨rfl, rfl, rfl, rfl⟩

theorem block : Statement .block := ⟨rfl, rfl, rfl, rfl⟩

theorem final (n : BitVec 6) : Statement (.final n) :=
  ⟨rfl, rfl, rfl, by simp [Instr.fields, CommandFields.tailAllowed]⟩

theorem encode : Statement .encode := ⟨rfl, rfl, rfl, rfl⟩

theorem tack : Statement .tack := ⟨rfl, rfl, rfl, rfl⟩

theorem abort : Statement .abort := ⟨rfl, rfl, rfl, rfl⟩

end Sys2Proof.Laws.LegalFields
end

