-- ==== Sys2Proof/Laws/Step.lean ====
section
/-! SUPPORT. Everything one step can do, said once. An invariant or a rule about the whole machine is a
case analysis over `StepEffect`, with no unfolding of the step (spec/20_memory.md R60, R61;
spec/43_commands.md R182 to R205). -/

namespace Sys2Proof.Machine

open Sys2Proof

/-- The host write the next turn makes, if it makes one. -/
def nextWrite (turn : Option Turn) : Option (BitVec 6 × Word) := turn.bind Turn.hostWrite

/-- What a step makes of `s`, the state with its turn taken off the agenda: `turn` is that turn, `none`
where there was none. -/
inductive StepEffect (turn : Option Turn) (s : State) : State → Prop where
  /-- The engine's own step (43_commands.md R201). -/
  | engine (hturn : turn = none ∨ turn = some .engine) (enabled : stepEnabled s = true) :
      StepEffect turn s (engineStep s)
  /-- The engine's turn with no step enabled (43_commands.md R200). -/
  | rest (hturn : turn = none ∨ turn = some .engine) (disabled : stepEnabled s = false) :
      StepEffect turn s s
  /-- A read (20_memory.md R60). -/
  | reply (idx : BitVec 6)
      (hturn : turn = some (.read idx) ∨
        ∃ addr size, turn = some (.busRead addr size) ∧ portIndexOf addr size = some idx) :
      StepEffect turn s (memRead idx s)
  /-- The reset input (70_reset_and_hazards.md R250). -/
  | reset (hturn : turn = some .reset) : StepEffect turn s (resetEffect s)
  /-- A write that changes nothing: ignored in ERROR, or a NOP (60_exceptions.md R231). -/
  | noChange (idx : BitVec 6) (v : Word) (hturn : nextWrite turn = some (idx, v))
      (why : (s.STATE = .error ∧ ¬ (idx = 1 ∧ v = 0x0000000F#32)) ∨
        (s.STATE ≠ .error ∧ idx = 1 ∧ decodeWord v = .command .nop)) :
      StepEffect turn s s
  /-- ABORT (43_commands.md R189). -/
  | abort (v : Word) (hturn : nextWrite turn = some (1, v)) (hv : decodeWord v = .command .abort) :
      StepEffect turn s (resetEffect s)
  /-- An error (60_exceptions.md R230). -/
  | error (code : ErrCode) (idx : BitVec 6) (v : Word) (hturn : nextWrite turn = some (idx, v))
      (hstate : s.STATE ≠ .error) (hcode : code ≠ .none) : StepEffect turn s (raiseError code s)
  /-- A block-buffer write (43_commands.md R190). -/
  | buffer (idx : BitVec 6) (v : Word) (hturn : nextWrite turn = some (idx, v)) (hidx : 48 ≤ idx.toNat)
      (hbusy : s.STATE ≠ .busy) (herror : s.STATE ≠ .error) :
      StepEffect turn s { s with M := setWord s.M (idx.toNat - 48) v }
  /-- INIT (43_commands.md R184). -/
  | init (v : Word) (t : Bool) (hturn : nextWrite turn = some (1, v))
      (hv : decodeWord v = .command (.init t)) (hbusy : s.STATE ≠ .busy) (herror : s.STATE ≠ .error) :
      StepEffect turn s { clearMessageState s with TEN := t, STATE := .ready }
  /-- BLOCK (43_commands.md R185). -/
  | block (v : Word) (hturn : nextWrite turn = some (1, v)) (hv : decodeWord v = .command .block)
      (hready : s.STATE = .ready) :
      StepEffect turn s
        { s with BITLEN := s.BITLEN + blockBits, FIN := false, PEND2 := false, DV := false
                 W := s.H, I := 0, STATE := .busy }
  /-- FINAL (43_commands.md R186). -/
  | final (v : Word) (n : BitVec 6) (hturn : nextWrite turn = some (1, v))
      (hv : decodeWord v = .command (.final n)) (hready : s.STATE = .ready) :
      StepEffect turn s
        { s with BITLEN := s.BITLEN + tailBits n, M := paddedTail s.M n (s.BITLEN + tailBits n)
                 PEND2 := !fitsOneBlock n, FIN := true, DV := false
                 W := s.H, I := 0, STATE := .busy }
  /-- ENCODE (43_commands.md R187). -/
  | encode (v : Word) (hturn : nextWrite turn = some (1, v)) (hv : decodeWord v = .command .encode)
      (hstate : s.STATE = .ready ∨ s.STATE = .done) : StepEffect turn s (encodeAction s)
  /-- TACK (43_commands.md R188). -/
  | tack (v : Word) (hturn : nextWrite turn = some (1, v)) (hv : decodeWord v = .command .tack)
      (herror : s.STATE ≠ .error) (hTV : s.TV = true) : StepEffect turn s { s with TV := false }

variable {s t : State}

/-- A decoded command outside ERROR has one of the effects. -/
theorem exec_effect {turn : Option Turn} {v : Word} {i : Instr} (hturn : nextWrite turn = some (1, v))
    (hv : decodeWord v = .command i) (herror : s.STATE ≠ .error) (h : exec i s = .next t) :
    StepEffect turn s t := by
  cases i with
  | nop =>
    unfold exec execNop at h
    obtain ⟨he, -⟩ | ⟨-, -, rfl⟩ | ⟨-, ha, -⟩ := command_cases h
    · exact absurd he herror
    · exact .noChange 1 v hturn (.inr ⟨herror, rfl, hv⟩)
    · exact absurd ha (by decide)
  | init ten =>
    unfold exec execInit at h
    obtain ⟨he, -⟩ | ⟨-, ha, rfl⟩ | ⟨-, -, rfl⟩ := command_cases h
    · exact absurd he herror
    · exact .init v ten hturn hv (by simpa using ha) herror
    · exact .error _ 1 v hturn herror (by decide)
  | block =>
    unfold exec execBlock at h
    obtain ⟨he, -⟩ | ⟨-, ha, rfl⟩ | ⟨-, -, rfl⟩ := command_cases h
    · exact absurd he herror
    · exact .block v hturn hv (by simpa using ha)
    · exact .error _ 1 v hturn herror (by decide)
  | final n =>
    unfold exec execFinal at h
    obtain ⟨he, -⟩ | ⟨-, ha, rfl⟩ | ⟨-, -, rfl⟩ := command_cases h
    · exact absurd he herror
    · exact .final v n hturn hv (by simpa using ha)
    · exact .error _ 1 v hturn herror (by decide)
  | encode =>
    unfold exec execEncode at h
    obtain ⟨he, -⟩ | ⟨-, ha, rfl⟩ | ⟨-, -, rfl⟩ := command_cases h
    · exact absurd he herror
    · exact .encode v hturn hv (by simpa using ha)
    · exact .error _ 1 v hturn herror (by decide)
  | tack =>
    unfold exec execTack at h
    obtain ⟨he, -⟩ | ⟨-, ha, rfl⟩ | ⟨-, -, rfl⟩ := command_cases h
    · exact absurd he herror
    · exact .tack v hturn hv herror ha
    · exact .error _ 1 v hturn herror (by decide)
  | abort =>
    obtain rfl : resetEffect s = t := by simpa [exec, execAbort] using h
    exact .abort v hturn hv

theorem toErrCode_ne_none (e : DecodeError) : DecodeError.toErrCode e ≠ .none := by
  cases e <;> decide

/-- A port write has one of the effects. -/
theorem memWrite_effect {turn : Option Turn} {idx : BitVec 6} {v : Word}
    (hturn : nextWrite turn = some (idx, v)) (h : memWrite idx v s = .next t) : StepEffect turn s t := by
  by_cases he : s.STATE = .error
  · by_cases hw : idx = 1 ∧ v = 0x0000000F#32
    · obtain ⟨rfl, rfl⟩ := hw
      rw [memWrite_error_abort he] at h
      obtain rfl : resetEffect s = t := by simpa using h
      exact .abort _ hturn (by decide)
    · rw [memWrite_error he hw] at h
      obtain rfl : s = t := by simpa using h
      exact .noChange idx v hturn (.inl ⟨he, hw⟩)
  · by_cases h1 : idx = 1
    · subst h1
      rw [memWrite_command he] at h
      unfold executeCommand at h
      split at h
      · exact exec_effect hturn ‹_› he h
      · rename_i e _
        obtain rfl : raiseError (DecodeError.toErrCode e) s = t := by simpa using h
        exact .error _ 1 v hturn he (toErrCode_ne_none e)
    · by_cases h48 : 48 ≤ idx.toNat
      · rw [memWrite_buffer he h48] at h
        by_cases hb : s.STATE = .busy
        · rw [writeM_busy hb] at h
          obtain rfl : raiseError .writeBusy s = t := by simpa using h
          exact .error _ idx v hturn he (by decide)
        · rw [writeM_performed hb] at h
          obtain rfl : { s with M := setWord s.M (idx.toNat - 48) v } = t := by simpa using h
          exact .buffer idx v hturn h48 hb he
      · rw [memWrite_badWrite he h1 (by omega)] at h
        obtain rfl : raiseError .badWrite s = t := by simpa using h
        exact .error _ idx v hturn he (by decide)

theorem engineTurn_effect {turn : Option Turn} (hturn : turn = none ∨ turn = some .engine) :
    StepEffect turn s (engineTurn s) := by
  cases h : stepEnabled s
  · rw [engineTurn_disabled h]
    exact .rest hturn h
  · rw [engineTurn_enabled h]
    exact .engine hturn h

/-- EVERYTHING ONE STEP CAN DO. -/
theorem step_effect (h : step s = .next t) :
    StepEffect s.agenda.head? { s with agenda := s.agenda.tail } t := by
  cases ha : s.agenda with
  | nil =>
    rw [step_nil ha] at h
    obtain rfl : engineTurn s = t := by simpa using h
    have e : { s with agenda := [].tail } = s := by rw [List.tail_nil, ← ha]
    rw [e]
    exact engineTurn_effect (.inl rfl)
  | cons turn rest =>
    rw [step_cons ha] at h
    simp only [List.head?_cons, List.tail_cons]
    generalize { s with agenda := rest } = s₀ at h ⊢
    cases turn with
    | engine =>
      obtain rfl : engineTurn s₀ = t := by simpa [runTurn] using h
      exact engineTurn_effect (.inr rfl)
    | read idx =>
      obtain rfl : memRead idx s₀ = t := by simpa [runTurn] using h
      exact .reply idx (.inl rfl)
    | write idx v => exact memWrite_effect (idx := idx) (v := v) rfl h
    | busRead addr size =>
      simp only [runTurn] at h
      split at h
      · rename_i idx hidx
        obtain rfl : memRead idx s₀ = t := by simpa using h
        exact .reply idx (.inr ⟨addr, size, rfl, hidx⟩)
      · exact absurd h (by simp)
    | busWrite addr size v =>
      simp only [runTurn] at h
      split at h
      · rename_i idx hidx
        exact memWrite_effect (idx := idx) (v := v) (by simp [nextWrite, Turn.hostWrite, hidx]) h
      · exact absurd h (by simp)
    | reset =>
      obtain rfl : resetEffect s₀ = t := by simpa [runTurn] using h
      exact .reset rfl

-- ## The fresh message

/-- A host write seen as the next turn names its turn. -/
theorem nextWrite_cases {w : BitVec 6 × Word} (h : nextWrite s.agenda.head? = some w) :
    ∃ turn, s.agenda.head? = some turn ∧ turn.hostWrite = some w := by
  unfold nextWrite at h
  obtain ⟨turn, ht, hw⟩ := Option.bind_eq_some_iff.mp h
  exact ⟨turn, ht, hw⟩

/-- The reset input clears the message (70_reset_and_hazards.md R250). -/
theorem clearedTo_reset (h : s.agenda.head? = some .reset) :
    s.ClearedTo (resetEffect { s with agenda := s.agenda.tail }) :=
  ⟨rfl, .inl h⟩

/-- ABORT clears the message (43_commands.md R189). -/
theorem clearedTo_abort {v : Word} (h : nextWrite s.agenda.head? = some (1, v))
    (hv : decodeWord v = .command .abort) : s.ClearedTo (resetEffect { s with agenda := s.agenda.tail }) := by
  obtain ⟨turn, ht, hw⟩ := nextWrite_cases h
  exact ⟨rfl, .inr ⟨turn, v, _, ht, hw, hv, .inl rfl⟩⟩

/-- INIT clears the message (43_commands.md R184). -/
theorem clearedTo_init {v : Word} {ten : Bool} (h : nextWrite s.agenda.head? = some (1, v))
    (hv : decodeWord v = .command (.init ten)) :
    s.ClearedTo { clearMessageState { s with agenda := s.agenda.tail } with TEN := ten, STATE := .ready } := by
  obtain ⟨turn, ht, hw⟩ := nextWrite_cases h
  exact ⟨rfl, .inr ⟨turn, v, _, ht, hw, hv, .inr ⟨ten, rfl⟩⟩⟩

end Sys2Proof.Machine
end

