-- ==== Sys2Proof/Machine/HostSyntax.lean ====
section
/-! DEFINITION. The host's side of the port: the names of the locations, the line syntax and the
pseudo-instructions with their expansions (spec/30_encoding.md R87, R88; spec/20_memory.md R53). A host
program is no state of the engine (10_state.md R44) and `step` does not use this file (log 17). -/

namespace Sys2Proof.Machine

open Sys2Proof

/-- A location: a name of 20_memory.md R53, or a word index (30_encoding.md R87). -/
inductive Location where
  | ID
  | CMD
  | STATUS
  | H (k : Fin 4)
  | W (k : Fin 4)
  | SNAP (k : Fin 4)
  | SNAP_IDX
  | STEPCNT
  | BITLEN_LO
  | BITLEN_HI
  | BLKCNT_LO
  | BLKCNT_HI
  | DIG (k : Fin 4)
  | HEX (k : Fin 8)
  | M (k : Fin 16)
  | word (idx : BitVec 6)
  deriving DecidableEq, Repr

/-- The word index of a location (20_memory.md R53). -/
def Location.index : Location → BitVec 6
  | .ID => 0
  | .CMD => 1
  | .STATUS => 2
  | .H k => BitVec.ofNat 6 (4 + k)
  | .W k => BitVec.ofNat 6 (8 + k)
  | .SNAP k => BitVec.ofNat 6 (12 + k)
  | .SNAP_IDX => 16
  | .STEPCNT => 17
  | .BITLEN_LO => 18
  | .BITLEN_HI => 19
  | .BLKCNT_LO => 20
  | .BLKCNT_HI => 21
  | .DIG k => BitVec.ofNat 6 (24 + k)
  | .HEX k => BitVec.ofNat 6 (32 + k)
  | .M k => BitVec.ofNat 6 (48 + k)
  | .word idx => idx

/-- One line of host syntax (30_encoding.md R87). -/
inductive HostLine where
  /-- `WR <loc>, <imm32>` -/
  | wr (loc : Location) (v : Word)
  /-- `RD <loc>` -/
  | rd (loc : Location)
  /-- `CMD <mnemonic>`, shorthand for `WR CMD, <command word>` -/
  | cmd (i : Instr)
  deriving DecidableEq, Repr

/-- The port transaction of a line (30_encoding.md R87). -/
def HostLine.turn : HostLine → Turn
  | .wr loc v => .write loc.index v
  | .rd loc => .read loc.index
  | .cmd i => .write Location.CMD.index (encode i)

/-- What a host program is made of: lines, and the two polling loops (30_encoding.md R88). -/
inductive HostOp where
  | line (l : HostLine)
  /-- `WAIT_NOT_BUSY` -/
  | waitNotBusy
  /-- `WAIT_SNAP` -/
  | waitSnap
  deriving DecidableEq, Repr

/-- `WAIT_NOT_BUSY` ends on a STATUS whose bits 2:0 are not 2 (30_encoding.md R88). -/
def notBusySeen (status : Word) : Bool := status.extractLsb' 0 3 ≠ 2#3

/-- `WAIT_SNAP` ends on a STATUS with bit 4 set, or whose bits 2:0 are not 2 (30_encoding.md R88). -/
def snapSeen (status : Word) : Bool := status.getLsbD 4 || notBusySeen status

/-- The little-endian word `k` of a byte sequence, bytes past its end read as 0 (30_encoding.md R88). -/
def messageWord (b : List Byte) (k : Nat) : Word :=
  le32 (b.getD (4 * k) 0) (b.getD (4 * k + 1) 0) (b.getD (4 * k + 2) 0) (b.getD (4 * k + 3) 0)

/-- `WR M<k>` for the first `words` words of a byte sequence, in order (30_encoding.md R88). -/
def loadWords (b : List Byte) (words : Nat) : List HostOp :=
  (List.range words).map fun k => .line (.wr (.M (Fin.ofNat 16 k)) (messageWord b k))

/-- `LOADBLK b[0..63]` (30_encoding.md R88). -/
def loadBlk (b : List Byte) : List HostOp := loadWords b 16

/-- `LOADTAIL b[0..n-1]`: the first `ceil(n/4)` words (30_encoding.md R88). -/
def loadTail (b : List Byte) : List HostOp := loadWords b ((b.length + 3) / 4)

/-- `TAKESNAP` (30_encoding.md R88). -/
def takeSnap : List HostOp :=
  [.line (.rd (.SNAP 0)), .line (.rd (.SNAP 1)), .line (.rd (.SNAP 2)), .line (.rd (.SNAP 3)),
    .line (.rd .SNAP_IDX), .line (.cmd .tack)]

/-- `READHEX` (30_encoding.md R88). -/
def readHex : List HostOp := (List.range 8).map fun r => .line (.rd (.HEX (Fin.ofNat 8 r)))

/-- `HASH b[0..L-1]` (30_encoding.md R88, 43_commands.md R210). -/
def hash (b : List Byte) : List HostOp :=
  let q := b.length / 64
  [.line (.cmd (.init false))] ++
    ((List.range q).flatMap fun j =>
      loadBlk ((b.drop (64 * j)).take 64) ++ [.line (.cmd .block), .waitNotBusy]) ++
    loadTail (b.drop (64 * q)) ++
    [.line (.cmd (.final (BitVec.ofNat 6 (b.length % 64)))), .waitNotBusy] ++ readHex

/-- A host that runs its program against the engine, one engine turn after each unsuccessful poll: one
of the fair interleavings of 43_commands.md R207. `none` when `fuel` runs out or a step stops. -/
def runHost : Nat → List HostOp → State → Option State
  | _, [], s => some s
  | 0, _ :: _, _ => none
  | fuel + 1, .line l :: ops, s =>
    match runTurn l.turn s with
    | .next t => runHost fuel ops t
    | .fault _ => none
    | .refused _ => none
  | fuel + 1, .waitNotBusy :: ops, s =>
    if notBusySeen (readPort s Location.STATUS.index) then
      runHost fuel ops (memRead Location.STATUS.index s)
    else runHost fuel (.waitNotBusy :: ops) (engineTurn (memRead Location.STATUS.index s))
  | fuel + 1, .waitSnap :: ops, s =>
    if snapSeen (readPort s Location.STATUS.index) then
      runHost fuel ops (memRead Location.STATUS.index s)
    else runHost fuel (.waitSnap :: ops) (engineTurn (memRead Location.STATUS.index s))

end Sys2Proof.Machine
end

