-- ==== Sys2Proof/Tests/Slice0.lean ====
section
/-! SUPPORT. Our own tests: what the well-formedness checks refuse, words written out bit by bit, one step
per command, and a witness for the hypotheses of every obligation. The expected values come from the
rules' own examples and from spec/95_test_vectors.md. -/

namespace Sys2Proof.Tests.Slice0

open Sys2Proof Sys2Proof.Machine

/-- One field of the next state, where there is one. -/
def after {α : Type} (f : State → α) : Result → Option α
  | .next t => some (f t)
  | .fault _ => none
  | .refused _ => none

/-- The reset state in a sequencer state of choice, with turns to come. -/
def stateAt (st : SeqState) (turns : List Turn) : State :=
  { State.reset with
    STATE := st, agenda := turns, ERR_CODE := if st = .error then .badState else .none }

/-- A trace-mode operation after the first step of the empty message, its snapshot held. -/
def heldState : State := { stateAt .busy [] with TEN := true, TV := true, FIN := true, I := 1 }

-- ## Well-formedness: each check refuses an ill-formed word's fields

theorem test_reserved_opcode_is_ill_formed :
    (CommandFields.mk 6 0 0 0 0).opcodeLegal = false ∧ (CommandFields.mk 6 0 0 0 0).wellFormed = false := by
  decide

theorem test_last_reserved_opcode_is_ill_formed :
    (CommandFields.mk 14 0 0 0 0).opcodeLegal = false ∧ (CommandFields.mk 14 0 0 0 0).wellFormed = false := by
  decide

theorem test_low_reserved_bit_is_ill_formed :
    (CommandFields.mk 0 0 1 0 0).reservedZero = false ∧ (CommandFields.mk 0 0 1 0 0).wellFormed = false := by
  decide

theorem test_high_reserved_bit_is_ill_formed :
    (CommandFields.mk 1 1 0 0 0x20000).reservedZero = false ∧
      (CommandFields.mk 1 1 0 0 0x20000).wellFormed = false := by
  decide

theorem test_trace_on_block_is_ill_formed :
    (CommandFields.mk 2 1 0 0 0).traceAllowed = false ∧ (CommandFields.mk 2 1 0 0 0).wellFormed = false := by
  decide

theorem test_tail_on_encode_is_ill_formed :
    (CommandFields.mk 4 0 0 1 0).tailAllowed = false ∧ (CommandFields.mk 4 0 0 1 0).wellFormed = false := by
  decide

-- ## Decoding: words written out from the encodings of 30_encoding.md R80 and R82

theorem test_decode_nop : decodeWord 0b000000000000000000_000000_000_0_0000#32 = .command .nop := by decide

theorem test_decode_init :
    decodeWord 0b000000000000000000_000000_000_0_0001#32 = .command (.init false) := by decide

theorem test_decode_init_trace :
    decodeWord 0b000000000000000000_000000_000_1_0001#32 = .command (.init true) := by decide

theorem test_decode_block : decodeWord 0b000000000000000000_000000_000_0_0010#32 = .command .block := by decide

theorem test_decode_final_63 :
    decodeWord 0b000000000000000000_111111_000_0_0011#32 = .command (.final 63) := by decide

theorem test_decode_final_32 :
    decodeWord 0b000000000000000000_100000_000_0_0011#32 = .command (.final 32) := by decide

theorem test_decode_encode : decodeWord 0b000000000000000000_000000_000_0_0100#32 = .command .encode := by
  decide

theorem test_decode_tack : decodeWord 0b000000000000000000_000000_000_0_0101#32 = .command .tack := by decide

theorem test_decode_abort : decodeWord 0b000000000000000000_000000_000_0_1111#32 = .command .abort := by
  decide

/-- 60_exceptions.md R228: the opcode is checked first. -/
theorem test_opcode_is_checked_before_fields : decodeWord 0xFFFFFFF6#32 = .reject .badOpcode := by decide

/-- The examples of 60_exceptions.md R223. -/
theorem test_bad_field_examples :
    decodeWord 0x80000011#32 = .reject .badField ∧ decodeWord 0x00000012#32 = .reject .badField ∧
      decodeWord 0x00000104#32 = .reject .badField ∧ decodeWord 0x00000020#32 = .reject .badField := by
  decide

theorem test_table_word_decodes : decodeTableWord 32 0x303 = some (.final 3) := by decide

-- ## One step per command (the examples of 43_commands.md R183 to R190)

theorem test_nop : after statusWord (exec .nop State.reset) = some 0x00000000#32 := by decide

theorem test_init_trace : after statusWord (exec (.init true) State.reset) = some 0x00000021#32 := by decide

theorem test_init_in_busy :
    after statusWord (exec (.init false) (stateAt .busy [])) = some 0x00030004#32 := by decide

theorem test_block_from_reset : after statusWord (exec .block State.reset) = some 0x00030004#32 := by decide

theorem test_block_in_ready :
    after (fun t => (statusWord t, t.BITLEN, t.W)) (exec .block (stateAt .ready [])) =
      some (0x00000002#32, 512#64, iv) := by decide

theorem test_final_3 :
    after (fun t => (wordAt t.M 0, wordAt t.M 13, wordAt t.M 14, wordAt t.M 15, statusWord t))
        (exec (.final 3) { stateAt .ready [] with M := setWord (words16 fun _ => 0) 0 0x00636261#32 }) =
      some (0x80636261#32, 0#32, 0x00000018#32, 0#32, 0x00000042#32) := by decide

/-- 40_padder.md R106: a tail of 63 bytes leaves no room for the length, and `0x80` is byte 63. -/
theorem test_final_63 :
    after (fun t => (wordAt t.M 14, wordAt t.M 15, statusWord t, t.BITLEN))
        (exec (.final 63) { stateAt .ready [] with M := words16 fun _ => 0x61616161#32 }) =
      some (0x61616161#32, 0x80616161#32, 0x000000c2#32, 504#64) := by decide

theorem test_encode_after_init :
    after (fun t => (t.DIG, statusWord t)) (exec .encode (stateAt .ready [])) =
      some (⟨0x01234567#32, 0x89abcdef#32, 0xfedcba98#32, 0x76543210#32⟩, 0x00000009#32) := by decide

theorem test_encode_from_reset : after statusWord (exec .encode State.reset) = some 0x00030004#32 := by decide

theorem test_tack_from_reset : after statusWord (exec .tack State.reset) = some 0x00050004#32 := by decide

theorem test_tack_held :
    statusWord heldState = 0x00000172#32 ∧ after statusWord (exec .tack heldState) = some 0x00000162#32 := by
  decide

theorem test_abort_from_error :
    statusWord (stateAt .error []) = 0x00030004#32 ∧
      after statusWord (exec .abort (stateAt .error [])) = some 0x00000000#32 := by decide

-- ## The port and the engine's step

/-- 60_exceptions.md R222. -/
theorem test_step_bad_opcode :
    after statusWord (step (stateAt .idle [.write 1 0x00000006#32])) = some 0x00010004#32 := by decide

/-- 60_exceptions.md R227: `WR H0, 5` after INIT. -/
theorem test_step_bad_write :
    after statusWord (step (stateAt .ready [.write 4 5#32])) = some 0x00060004#32 := by decide

/-- 60_exceptions.md R225: `WR M0, 1` during BLOCK. -/
theorem test_step_write_busy :
    after statusWord (step (stateAt .busy [.write 48 1#32])) = some 0x00040004#32 := by decide

/-- 43_commands.md R190: "abc" in block bytes 0 to 2. -/
theorem test_step_buffer_write :
    after (fun t => (blockByte t.M 0, blockByte t.M 1, blockByte t.M 2, blockByte t.M 3))
        (step (stateAt .ready [.write 48 0x00636261#32])) = some (0x61#8, 0x62#8, 0x63#8, 0x00#8) := by decide

theorem test_step_read_id :
    after (fun t => t.replies) (step (stateAt .idle [.read 0])) = some [⟨0, 0x4D443501#32⟩] := by decide

/-- 41_block_processor.md R131: step 0 of the empty message. -/
theorem test_engine_step_0 :
    after (fun t => (t.W, t.I, t.STEPCNT))
        (step { stateAt .busy [.engine] with W := iv, M := setWord (words16 fun _ => 0) 0 0x00000080#32 }) =
      some (⟨0x10325476#32, 0xa5202774#32, 0xefcdab89#32, 0x98badcfe#32⟩, 1#6, 1#32) := by decide

theorem test_held_engine_rests : after statusWord (step heldState) = some 0x00000172#32 := by decide

/-- The examples of 41_block_processor.md R125 to R128. -/
theorem test_mixing_functions :
    mix .first 0xFFFF0000#32 0xFF00FF00#32 0xF0F0F0F0#32 = 0xFF00F0F0#32 ∧
      mix .second 0xFFFF0000#32 0xFF00FF00#32 0xF0F0F0F0#32 = 0xFFF00F00#32 ∧
      mix .third 0xFFFF0000#32 0xFF00FF00#32 0xF0F0F0F0#32 = 0xF00F0FF0#32 ∧
      mix .fourth 0xFFFF0000#32 0xFF00FF00#32 0xF0F0F0F0#32 = 0x00FFF00F#32 := by decide

/-- 42_digest_encoder.md R167: the digest of the empty message starts `d41d8cd9`. -/
theorem test_hex_of_empty_digest :
    (List.range 8).map (hexChar ⟨0xd98c1dd4#32, 0, 0, 0⟩) =
      [0x64#8, 0x34#8, 0x31#8, 0x64#8, 0x38#8, 0x63#8, 0x64#8, 0x39#8] := by decide

/-- 40_padder.md R110: the empty message pads to `0x00000080` and fifteen zero words. -/
theorem test_empty_tail :
    paddedTail (words16 fun _ => 0xFFFFFFFF#32) 0 0 = setWord (words16 fun _ => 0) 0 0x00000080#32 := by decide

/-- The next step runs the word `withFetchWord` places (log 8). -/
theorem test_fetch_word_runs :
    after statusWord (step (State.reset.withFetchWord 32 0x11)) = some 0x00000021#32 := by decide

-- ## Witnesses: the hypotheses of each obligation can be met

/-- A block in progress with its first step to come: every invariant holds. -/
def started : State := { stateAt .busy [.engine] with W := iv }

theorem witness_ResetGivesEveryElementItsValue :
    ∃ s : State, s.agenda = .reset :: [.engine] ∧ s.K = kRom ∧ s.S = sRom :=
  ⟨stateAt .busy [.reset, .engine], rfl, rfl, rfl⟩

theorem witness_EveryStepKeepsInv : ∃ s t : State, s.Inv ∧ step s = .next t :=
  ⟨started, _, by decide, rfl⟩

theorem witness_EveryStepKeepsMidBlock : ∃ s t : State, s.MidBlock ∧ s.STATE = .busy ∧ step s = .next t :=
  ⟨started, _, by decide, rfl, rfl⟩

theorem witness_EveryStepKeepsCountersAgree :
    ∃ s t : State, s.Inv ∧ s.CountersAgree ∧ step s = .next t :=
  ⟨started, _, by decide, by decide, rfl⟩

theorem witness_RomsAreFixedAndUnreachable : ∃ s t : State, step s = .next t := ⟨started, _, rfl⟩

theorem witness_ConstantTableIsTheSineFormula : (0 < 64) ∧ (63 < 64) := by decide

theorem witness_MixingFunctionsBitByBit : (0 < 32) ∧ (31 < 32) := by decide

theorem witness_RotationIsCircular :
    (1 ≤ 1 ∧ 1 ≤ 31 ∧ 0 < 32) ∧ (1 ≤ 31 ∧ 31 ≤ 31 ∧ 31 < 32) := by decide

theorem witness_CommandWriteRunsTheDecodedCommand :
    (∃ s : State, s.agenda = .write 1 0x00003F03#32 :: [] ∧
      decodeWord 0x00003F03#32 = .command (.final 63)) ∧
    decodeTableWord 32 0x11 = some (.init true) :=
  ⟨⟨stateAt .ready [.write 1 0x00003F03#32], rfl, by decide⟩, by decide⟩

theorem witness_IllegalWordsRaiseTheirError :
    (∀ v : Word, ∃ s : State, s.agenda = .write 1 v :: [] ∧ s.STATE ≠ .error) ∧
    6 ≤ (BitVec.extractLsb' 0 4 0x00000006#32).toNat ∧
    (BitVec.extractLsb' 0 4 0xFFFFFFFE#32).toNat ≤ 14 ∧
    ((BitVec.extractLsb' 0 4 0x00000025#32).toNat ≤ 5 ∧ BitVec.extractLsb' 5 3 0x00000025#32 ≠ 0#3) ∧
    (BitVec.extractLsb' 0 4 0x8000000F#32 = 15#4 ∧ BitVec.extractLsb' 14 18 0x8000000F#32 ≠ 0#18) ∧
    (BitVec.getLsbD 0x00000010#32 4 = true ∧ BitVec.extractLsb' 0 4 0x00000010#32 ≠ 1#4) ∧
    (BitVec.extractLsb' 8 6 0x00000104#32 ≠ 0#6 ∧ BitVec.extractLsb' 0 4 0x00000104#32 ≠ 3#4) :=
  ⟨fun v => ⟨stateAt .idle [.write 1 v], rfl, by simp [stateAt]⟩, by decide⟩

theorem witness_ReadReturnsTheLocation : ∀ idx : BitVec 6, ∃ s : State, s.agenda = .read idx :: [] :=
  fun idx => ⟨stateAt .error [.read idx], rfl⟩

theorem witness_StatusFieldsAreAssembled :
    ∃ s : State, s.agenda = .write 2 0#32 :: [] ∧ s.STATE ≠ .error :=
  ⟨stateAt .ready [.write 2 0], rfl, by decide⟩

theorem witness_WriteToReadOnlyLocationRaisesBadWrite :
    ∀ idx ∈ [0#6, 2#6, 47#6], ∃ s : State,
      s.agenda = .write idx 5#32 :: [] ∧ s.STATE ≠ .error ∧ idx.toNat ≠ 1 ∧ idx.toNat < 48 := by
  intro idx h
  exact ⟨stateAt .done [.write idx 5#32], rfl, by simp [stateAt], by revert idx; decide⟩

theorem witness_BlockBufferWrite :
    ∀ st : SeqState, ∀ k : Fin 16, ∃ s : State,
      s.agenda = .write (48 + BitVec.ofNat 6 k) 1#32 :: [] ∧ (48 + BitVec.ofNat 6 k).toNat = 48 + k ∧
      s.STATE = st := by
  intro st k
  exact ⟨stateAt st [.write (48 + BitVec.ofNat 6 k) 1#32], rfl, by revert k; decide, rfl⟩

theorem witness_ByteAddressedAccessIsTheWordTransaction :
    (∃ size : Nat, size ≠ 4) ∧ ∀ idx : BitVec 6, portBase + 1 ≠ portBase + 4 * idx.toNat :=
  ⟨⟨2, by decide⟩, fun _ => by omega⟩

theorem witness_EveryPortTurnHasANextState :
    ∃ s : State, s.agenda = [.busRead portBase 4] ∧
      (∀ addr size, s.agenda.head? = some (.busRead addr size) → portIndexOf addr size ≠ none) ∧
      ∀ addr size v, s.agenda.head? = some (.busWrite addr size v) → portIndexOf addr size ≠ none := by
  refine ⟨stateAt .ready [.busRead portBase 4], rfl, ?_, ?_⟩
  · intro addr size h
    obtain ⟨rfl, rfl⟩ : portBase = addr ∧ 4 = size := by simpa [stateAt] using h
    simp [portIndexOf]
  · intro addr size v h
    simp [stateAt] at h

theorem witness_NopHasNoEffect :
    BitVec.extractLsb' 0 4 0x80000000#32 = 0x0#4 ∧ (0x80000000#32 : Word) ≠ 0x00000000#32 := by decide

theorem witness_InitOpensAFreshMessage :
    (BitVec.extractLsb' 0 4 0x00000101#32 = 0x1#4 ∧
      (0x00000101#32 : Word) &&& 0xFFFFFFEF#32 ≠ 0x00000001#32) ∧
    (∃ s : State, s.STATE = .idle) ∧ (∃ s : State, s.STATE = .ready) ∧ (∃ s : State, s.STATE = .done) ∧
    ∃ s : State, s.STATE = .busy :=
  ⟨by decide, ⟨stateAt .idle [], rfl⟩, ⟨stateAt .ready [], rfl⟩, ⟨stateAt .done [], rfl⟩,
    ⟨stateAt .busy [], rfl⟩⟩

theorem witness_BlockStartsTheOperation :
    (BitVec.extractLsb' 0 4 0x00000012#32 = 0x2#4 ∧ (0x00000012#32 : Word) ≠ 0x00000002#32) ∧
    (∃ s : State, s.STATE = .ready) ∧ (∃ s : State, s.STATE = .idle) ∧ (∃ s : State, s.STATE = .busy) ∧
    ∃ s : State, s.STATE = .done :=
  ⟨by decide, ⟨stateAt .ready [], rfl⟩, ⟨stateAt .idle [], rfl⟩, ⟨stateAt .busy [], rfl⟩,
    ⟨stateAt .done [], rfl⟩⟩

theorem witness_FinalPadsTheTailAndStarts :
    (BitVec.extractLsb' 0 4 0x00000013#32 = 0x3#4 ∧
      (0x00000013#32 : Word) &&& 0xFFFFC0FF#32 ≠ 0x00000003#32) ∧
    (∃ s : State, s.STATE = .ready) ∧ (∃ s : State, s.STATE = .idle) ∧ (∃ s : State, s.STATE = .busy) ∧
    ∃ s : State, s.STATE = .done :=
  ⟨by decide, ⟨stateAt .ready [], rfl⟩, ⟨stateAt .idle [], rfl⟩, ⟨stateAt .busy [], rfl⟩,
    ⟨stateAt .done [], rfl⟩⟩

theorem witness_EncodeWritesTheDigestRegisters :
    (BitVec.extractLsb' 0 4 0x00000104#32 = 0x4#4 ∧ (0x00000104#32 : Word) ≠ 0x00000004#32) ∧
    (∃ s : State, s.STATE = .ready) ∧ (∃ s : State, s.STATE = .done) ∧ (∃ s : State, s.STATE = .idle) ∧
    ∃ s : State, s.STATE = .busy :=
  ⟨by decide, ⟨stateAt .ready [], rfl⟩, ⟨stateAt .done [], rfl⟩, ⟨stateAt .idle [], rfl⟩,
    ⟨stateAt .busy [], rfl⟩⟩

theorem witness_HexStringIsTheDigestInHex : ((0 < 32) ∧ (31 < 32)) ∧ (0 < 4) ∧ (3 < 4) := by decide

theorem witness_DigRegistersPrintTheDigest : (0 < 4) ∧ (3 < 4) := by decide

theorem witness_TackLiftsTheHold :
    (BitVec.extractLsb' 0 4 0x00000015#32 = 0x5#4 ∧ (0x00000015#32 : Word) ≠ 0x00000005#32) ∧
    (∃ s : State, s.STATE ≠ .error ∧ s.TV = true) ∧ ∃ s : State, s.STATE ≠ .error ∧ s.TV = false :=
  ⟨by decide, ⟨heldState, by decide⟩, ⟨stateAt .done [], by decide⟩⟩

theorem witness_AbortGivesTheResetState :
    (BitVec.extractLsb' 0 4 0x0000001F#32 = 0xF#4 ∧ (0x0000001F#32 : Word) ≠ 0x0000000F#32) ∧
    ∃ s : State, s.agenda = .write 1 0x0000001F#32 :: [] ∧ s.STATE = .error :=
  ⟨by decide, ⟨stateAt .error [.write 1 0x0000001F#32], rfl, rfl⟩⟩

theorem witness_CommandsLeaveOtherLocationsAlone :
    (∃ t, exec .nop (stateAt .done []) = .next t) ∧ (∃ t, exec (.init true) (stateAt .done []) = .next t) ∧
    (∃ t, exec .block (stateAt .ready []) = .next t) ∧
    (∃ t, exec (.final 63) (stateAt .ready []) = .next t) ∧
    (∃ t, exec .encode (stateAt .ready []) = .next t) ∧ (∃ t, exec .tack heldState = .next t) ∧
    ∃ t, exec .abort (stateAt .busy []) = .next t :=
  ⟨⟨_, rfl⟩, ⟨_, rfl⟩, ⟨_, rfl⟩, ⟨_, rfl⟩, ⟨_, rfl⟩, ⟨_, rfl⟩, ⟨_, rfl⟩⟩

theorem witness_InitForgetsThePast :
    ∃ s₁ s₂ : State, s₁ ≠ s₂ ∧ s₁.STATE ≠ .busy ∧ s₁.STATE ≠ .error ∧ s₂.STATE ≠ .busy ∧ s₂.STATE ≠ .error ∧
      s₁.K = s₂.K ∧ s₁.S = s₂.S ∧ s₁.agenda = s₂.agenda ∧ s₁.replies = s₂.replies :=
  ⟨stateAt .ready [], { stateAt .done [] with BLKCNT := 7 }, by decide, by decide, by decide, by decide,
    by decide, rfl, rfl, rfl, rfl⟩

theorem witness_IdempotentTransactions :
    (∃ s t : State, exec .nop s = .next t) ∧
    (∃ s t : State, s.STATE = .done ∧ exec .encode s = .next t) ∧
    (∃ s t : State, exec .abort s = .next t) ∧
    ∃ s t : State, s.STATE ≠ .busy ∧ s.STATE ≠ .error ∧ 48 ≤ (63#6).toNat ∧ memWrite 63 9#32 s = .next t :=
  ⟨⟨stateAt .busy [], _, rfl⟩, ⟨stateAt .done [], _, rfl, rfl⟩, ⟨stateAt .error [], _, rfl⟩,
    ⟨stateAt .idle [], _, by decide, by decide, by decide, rfl⟩⟩

theorem witness_BytesAboveTheTailDoNotMatter :
    ∃ s : State, s.STATE = .ready ∧
      ∀ j, j < (3#6).toNat → blockByte (words16 fun _ => 0xFF000000#32) j = blockByte s.M j := by
  refine ⟨stateAt .ready [], rfl, ?_⟩
  decide

theorem witness_CommandInWrongStateRaisesBadState :
    (∃ s : State, s.agenda = .write 1 (encode (.init true)) :: [] ∧ s.STATE = .busy) ∧
    (∃ s : State, s.agenda = .write 1 (encode .block) :: [] ∧ s.STATE = .idle) ∧
    (∃ s : State, s.agenda = .write 1 (encode (.final 63)) :: [] ∧ s.STATE = .done) ∧
    ∃ s : State, s.agenda = .write 1 (encode .encode) :: [] ∧ s.STATE = .busy :=
  ⟨⟨stateAt .busy [.write 1 (encode (.init true))], rfl, rfl⟩,
    ⟨stateAt .idle [.write 1 (encode .block)], rfl, rfl⟩,
    ⟨stateAt .done [.write 1 (encode (.final 63))], rfl, rfl⟩,
    ⟨stateAt .busy [.write 1 (encode .encode)], rfl, rfl⟩⟩

theorem witness_ErrorStateIgnoresAllButAbort :
    (∃ s : State, s.STATE = .error ∧ s.agenda = .write 1 0x00000001#32 :: [] ∧
      (0x00000001#32 : Word) ≠ 0x0000000F#32) ∧
    (∃ s : State, s.STATE = .error ∧ s.agenda = .write 0 0x0000000F#32 :: [] ∧ (0#6) ≠ 1#6) ∧
    (∃ s : State, s.STATE = .error ∧ s.agenda = .write 1 0x0000000F#32 :: []) ∧
    (∃ s : State, s.STATE = .error ∧ s.agenda = .read 63 :: []) ∧
    (∃ s : State, s.STATE = .error ∧ s.agenda = .engine :: []) ∧
    ∃ s : State, s.STATE = .error ∧ s.agenda = [] :=
  ⟨⟨stateAt .error [.write 1 0x00000001#32], rfl, rfl, by decide⟩,
    ⟨stateAt .error [.write 0 0x0000000F#32], rfl, rfl, by decide⟩,
    ⟨stateAt .error [.write 1 0x0000000F#32], rfl, rfl⟩, ⟨stateAt .error [.read 63], rfl, rfl⟩,
    ⟨stateAt .error [.engine], rfl, rfl⟩, ⟨stateAt .error [], rfl, rfl⟩⟩

theorem witness_DecodedCommandsAreIgnoredInError :
    ∃ (i : Instr) (s : State), s.STATE = .error ∧ i ≠ .abort :=
  ⟨.init true, stateAt .error [], rfl, by decide⟩

theorem witness_OnlyAbortOrResetLeavesError :
    (∃ s t : State, s.agenda = [.reset] ∧ s.STATE = .error ∧ step s = .next t ∧ t.STATE ≠ .error) ∧
    ∃ s t : State, s.agenda = [.write 1 0x0000000F#32] ∧ s.STATE = .error ∧ step s = .next t ∧
      t.STATE ≠ .error :=
  ⟨⟨stateAt .error [.reset], _, rfl, rfl, rfl, by decide⟩,
    ⟨stateAt .error [.write 1 0x0000000F#32], _, rfl, rfl, rfl, by decide⟩⟩

theorem witness_ErrorsArePreciseAndRaisedByWrites :
    ∃ s t : State, s.STATE ≠ .error ∧ step s = .next t ∧ t.STATE = .error :=
  ⟨stateAt .ready [.write 47 0], _, by decide, rfl, rfl⟩

theorem witness_EngineStepIsOneTransition :
    (∃ s : State, s.agenda = .engine :: [] ∧ s.STATE = .busy ∧ ¬ (s.TEN = true ∧ s.TV = true) ∧
      s.I.toNat < 63) ∧
    (∃ s : State, s.agenda = .engine :: [] ∧ s.STATE = .busy ∧ ¬ (s.TEN = true ∧ s.TV = true) ∧
      s.I.toNat = 63 ∧ s.FIN = false) ∧
    (∃ s : State, s.agenda = .engine :: [] ∧ s.STATE = .busy ∧ ¬ (s.TEN = true ∧ s.TV = true) ∧
      s.I.toNat = 63 ∧ s.FIN = true ∧ s.PEND2 = true) ∧
    ∃ s : State, s.agenda = .engine :: [] ∧ s.STATE = .busy ∧ ¬ (s.TEN = true ∧ s.TV = true) ∧
      s.I.toNat = 63 ∧ s.FIN = true ∧ s.PEND2 = false :=
  ⟨⟨{ started with I := 62, TEN := true }, by decide⟩, ⟨{ started with I := 63 }, by decide⟩,
    ⟨{ started with I := 63, FIN := true, PEND2 := true }, by decide⟩,
    ⟨{ started with I := 63, FIN := true }, by decide⟩⟩

theorem witness_EngineWithoutAStepDoesNothing :
    (∃ s : State, s.agenda = .engine :: [] ∧ s.STATE ≠ .busy) ∧
    (∃ s : State, s.agenda = [] ∧ s.TEN = true ∧ s.TV = true) ∧
    (∃ s : State, s.agenda = [] ∧ s.STATE ≠ .busy) :=
  ⟨⟨stateAt .done [.engine], by decide⟩, ⟨heldState, by decide⟩, ⟨stateAt .ready [], by decide⟩⟩

theorem witness_TracingChangesNoResult : ∃ s : State, stepEnabled s = true ∧ s.TEN = true :=
  ⟨{ started with TEN := true }, by decide⟩

theorem witness_BlockOperationCompressesTheBuffer :
    ∃ s : State, s.STATE = .ready ∧ s.TEN = false ∧ s.agenda = List.replicate 64 .engine ++ [.read 2] :=
  ⟨stateAt .ready (List.replicate 64 .engine ++ [.read 2]), rfl, rfl, rfl⟩

theorem witness_EngineBlocksAreTheBlocksOfPad :
    (∀ j, j < ([] : List Byte).length % 64 →
      blockByte (words16 fun _ => 0) j = ([] : List Byte).getD (64 * ([] : List Byte).length / 64 + j) 0) ∧
    (∀ j, j < (List.replicate 56 0x00#8).length % 64 →
      blockByte (words16 fun _ => 0) j =
        (List.replicate 56 0x00#8).getD (64 * ((List.replicate 56 0x00#8).length / 64) + j) 0) ∧
    56 ≤ (List.replicate 56 0x00#8).length % 64 := by
  refine ⟨by simp, ?_, by simp⟩
  decide

theorem witness_PaddedMessageLengthAndParts : (pad []).length = 64 := by decide

/-- The empty message: `q = 0`, no tail, one block. -/
theorem witness_FinalOperationYieldsTheMessageDigest :
    ∃ s : State, s.STATE = .ready ∧ s.TEN = false ∧ s.K = kRom ∧ s.S = sRom ∧
      s.H = chainingValue [] (([] : List Byte).length / 64) ∧
      s.BITLEN = BitVec.ofNat 64 (512 * (([] : List Byte).length / 64)) ∧
      (∀ j, j < ([] : List Byte).length % 64 →
        blockByte s.M j = ([] : List Byte).getD (64 * (([] : List Byte).length / 64) + j) 0) ∧
      s.agenda = List.replicate (if 56 ≤ ([] : List Byte).length % 64 then 128 else 64) .engine ++ [] :=
  ⟨stateAt .ready (List.replicate 64 .engine), rfl, rfl, rfl, rfl, rfl, rfl, by simp, rfl⟩

theorem witness_TraceModeDeliversEveryStepOfBlock :
    ∃ s : State, s.STATE = .ready ∧ s.TEN = true ∧ s.TV = false ∧ 63 < 64 ∧
      s.agenda = (List.replicate 64 [Turn.engine, Turn.write 1 0x00000005#32]).flatten ++ [] :=
  ⟨{ stateAt .ready ((List.replicate 64 [Turn.engine, Turn.write 1 0x00000005#32]).flatten ++ []) with
      TEN := true }, rfl, rfl, rfl, by decide, rfl⟩

/-- The largest tail of one block and the smallest of two, each at its last step. -/
theorem witness_TraceModeDeliversEveryStepOfFinal :
    (∃ s : State, s.STATE = .ready ∧ s.TEN = true ∧ s.TV = false ∧
      63 < (if 56 ≤ (55#6).toNat then 128 else 64) ∧
      s.agenda = (List.replicate (if 56 ≤ (55#6).toNat then 128 else 64)
        [Turn.engine, Turn.write 1 0x00000005#32]).flatten ++ []) ∧
    ∃ s : State, s.STATE = .ready ∧ s.TEN = true ∧ s.TV = false ∧
      127 < (if 56 ≤ (56#6).toNat then 128 else 64) ∧
      s.agenda = (List.replicate (if 56 ≤ (56#6).toNat then 128 else 64)
        [Turn.engine, Turn.write 1 0x00000005#32]).flatten ++ [] :=
  ⟨⟨{ stateAt .ready ((List.replicate 64 [Turn.engine, Turn.write 1 0x00000005#32]).flatten ++ []) with
      TEN := true }, rfl, rfl, rfl, by decide, rfl⟩,
    ⟨{ stateAt .ready ((List.replicate 128 [Turn.engine, Turn.write 1 0x00000005#32]).flatten ++ []) with
      TEN := true }, rfl, rfl, rfl, by decide, rfl⟩⟩

/-- A byte-addressed read and a byte-addressed NOP let an operation go on, and the first is a read. -/
theorem test_byte_addressed_turns :
    (Turn.busRead portBase 4).isRead = true ∧ (Turn.busRead portBase 4).letsRun = true ∧
      (Turn.busWrite (portBase + 4) 4 0).letsRun = true ∧ (Turn.busRead portBase 2).isRead = false := by
  simp [Turn.isRead, Turn.letsRun, portIndexOf]

/-- One step is left of a BLOCK operation; a NOP and a read come before the engine's turn. -/
theorem witness_OperationInProgressEnds :
    ∃ (s : State) (l : List Turn), s.STATE = .busy ∧ s.TEN = false ∧ s.agenda = l ++ [.reset] ∧
      (∀ turn ∈ l, turn.letsRun = true) ∧ stepsLeft s ≤ l.count .engine :=
  ⟨{ stateAt .busy [.write 1 0, .read 8, .engine, .reset] with I := 63 }, [.write 1 0, .read 8, .engine],
    by decide⟩

theorem witness_ReadsDoNotChangeARun :
    ∃ s t : State, s.agenda = [.read 2, .write 1 0x00000001#32, .read 2] ∧
      steps s.agenda.length s = .next t :=
  ⟨stateAt .idle [.read 2, .write 1 0x00000001#32, .read 2], _, rfl, rfl⟩

theorem witness_OnlyThreeThingsWriteTheMdBuffer :
    (∃ s t : State, s.agenda = [.write 1 0x00000001#32] ∧ step s = .next t ∧ t.H ≠ s.H) ∧
    ∃ s t : State, s.agenda = [.engine] ∧ step s = .next t ∧ t.H ≠ s.H :=
  ⟨⟨{ stateAt .done [.write 1 0x00000001#32] with H := Quad.zero }, _, rfl, rfl, by decide⟩,
    ⟨{ started with I := 63 }, _, rfl, rfl, by decide⟩⟩

theorem witness_BlockBufferIsStableWhileBusy :
    (∃ s t : State, s.agenda = [.engine] ∧ s.STATE = .busy ∧ step s = .next t ∧ t.M ≠ s.M) ∧
    ∃ s t : State, s.agenda = [.reset] ∧ s.STATE = .busy ∧ step s = .next t ∧ t.M ≠ s.M :=
  ⟨⟨{ started with I := 63, FIN := true, PEND2 := true, BITLEN := 448 }, _, rfl, rfl, rfl, by decide⟩,
    ⟨{ stateAt .busy [.reset] with M := words16 fun _ => 1 }, _, rfl, rfl, rfl, by decide⟩⟩

theorem witness_HostCannotDisturbAnOperation :
    ∃ s t : State, s.STATE = .busy ∧ step s = .next t ∧
      ∃ turn, s.agenda.head? = some turn ∧ turn ≠ .engine ∧ turn ≠ .reset :=
  ⟨stateAt .busy [.write 1 0x00000004#32], _, rfl, rfl, .write 1 0x00000004#32, rfl, by decide, by decide⟩

theorem witness_CountersChangeOnlyAtTheirEvents :
    (∃ s t : State, s.agenda = [.write 1 0x00000002#32] ∧ step s = .next t ∧ t.BITLEN ≠ s.BITLEN) ∧
    (∃ s t : State, s.agenda = [.write 1 0x00000103#32] ∧ step s = .next t ∧ t.BITLEN ≠ s.BITLEN) ∧
    (∃ s t : State, s.agenda = [.reset] ∧ step s = .next t ∧ t.BITLEN ≠ s.BITLEN ∧ t.BLKCNT ≠ s.BLKCNT) ∧
    (∃ s t : State, s.agenda = [.write 1 0x00000001#32] ∧ step s = .next t ∧ t.BITLEN ≠ s.BITLEN ∧
      t.BLKCNT ≠ s.BLKCNT) ∧
    ∃ s t : State, s.agenda = [.engine] ∧ step s = .next t ∧ t.BLKCNT ≠ s.BLKCNT :=
  ⟨⟨stateAt .ready [.write 1 0x00000002#32], _, rfl, rfl, by decide⟩,
    ⟨stateAt .ready [.write 1 0x00000103#32], _, rfl, rfl, by decide⟩,
    ⟨{ stateAt .busy [.reset] with BITLEN := 512, BLKCNT := 1 }, _, rfl, rfl, by decide, by decide⟩,
    ⟨{ stateAt .done [.write 1 0x00000001#32] with BITLEN := 24, BLKCNT := 1 }, _, rfl, rfl, by decide,
      by decide⟩,
    ⟨{ started with I := 63 }, _, rfl, rfl, by decide⟩⟩

end Sys2Proof.Tests.Slice0
end

section
/-! Rotation: bits and value of `rotl32`, and the amounts the engine uses (00_scope.md R9). -/

namespace Sys2Proof

/-- The model's rotation is the library's on every amount below the width. -/
theorem rotl32_eq_rotateLeft (x : Word) {s : Nat} (hs : s < 32) : rotl32 x s = x.rotateLeft s := by
  rw [rotl32, BitVec.rotateLeft_def, Nat.mod_eq_of_lt hs]

/-- The `s` low bits of a rotated word are those that left at the top; the others moved up by `s`. -/
theorem getLsbD_rotl32 (x : Word) {s j : Nat} (hs : s < 32) (hj : j < 32) :
    (rotl32 x s).getLsbD j = x.getLsbD ((j + (32 - s)) % 32) := by
  rw [rotl32_eq_rotateLeft x hs, BitVec.getLsbD_rotateLeft, Nat.mod_eq_of_lt hs]
  by_cases hjs : j < s
  · have source : (j + (32 - s)) % 32 = 32 - s + j := by omega
    simp [source, hjs]
  · have source : (j + (32 - s)) % 32 = j - s := by omega
    simp [source, hjs, hj]

/-- The two halves of a rotation share no bit: the left shift fills bits `s` and up, the right shift
those below `s`. -/
theorem shiftLeft_and_ushiftRight_eq_zero (x : Word) (s : Nat) : x <<< s &&& x >>> (32 - s) = 0#32 := by
  apply BitVec.eq_of_getLsbD_eq
  intro j _
  simp only [BitVec.getLsbD_and, BitVec.getLsbD_shiftLeft, BitVec.getLsbD_ushiftRight]
  by_cases hjs : j < s
  · simp [hjs]
  · have outside : 32 ≤ 32 - s + j := by omega
    simp [BitVec.getLsbD_of_ge x _ outside]

/-- The halves being disjoint, their `|||` is a sum without carries. -/
theorem toNat_rotl32 (x : Word) (s : Nat) :
    (rotl32 x s).toNat = x.toNat * 2 ^ s % 2 ^ 32 + x.toNat / 2 ^ (32 - s) := by
  have disjoint := shiftLeft_and_ushiftRight_eq_zero x s
  calc (rotl32 x s).toNat
      = (x <<< s + x >>> (32 - s)).toNat := by rw [rotl32, BitVec.add_eq_or_of_and_eq_zero _ _ disjoint]
    _ = (x <<< s).toNat + (x >>> (32 - s)).toNat := BitVec.toNat_add_of_and_eq_zero disjoint
    _ = x.toNat * 2 ^ s % 2 ^ 32 + x.toNat / 2 ^ (32 - s) := by
      rw [BitVec.toNat_shiftLeft, BitVec.toNat_ushiftRight, Nat.shiftLeft_eq, Nat.shiftRight_eq_div_pow]

namespace Machine

/-- The rotation ROM has 64 entries, so its range is a finite check (41_block_processor.md R123). -/
theorem rotAmount_sRom_bounds : ∀ i : BitVec 6, 4 ≤ rotAmount sRom i ∧ rotAmount sRom i ≤ 23 := by
  decide

/-- Settles O9: bits and value from the lemmas on `rotl32`, the amounts from the ROM's entries. -/
theorem rotationIsCircular : Obligations.RotationIsCircular := by
  unfold Obligations.RotationIsCircular
  refine ⟨fun x s j _ hs hj => ⟨?_, toNat_rotl32 x s⟩, rotAmount_sRom_bounds⟩
  exact getLsbD_rotl32 x (Nat.lt_succ_of_le hs) hj

end Machine

end Sys2Proof
end

section
/-! Who writes the MD Buffer and the ROMs, and what the port shows of the ROMs and of STATUS
(10_state.md R22, R26, R27, R33). -/

namespace Sys2Proof.Machine

open Sys2Proof

variable {s t : State}

-- ## What the engine's step does to the MD Buffer and the ROMs

@[simp] theorem advanceStep_H (s : State) : (advanceStep s).H = s.H := by simp [advanceStep_eq]
@[simp] theorem advanceStep_W (s : State) : (advanceStep s).W = stepFn s.K s.S s.I s.W s.M := by
  simp [advanceStep_eq]
@[simp] theorem advanceStep_K (s : State) : (advanceStep s).K = s.K := by simp [advanceStep_eq]
@[simp] theorem advanceStep_S (s : State) : (advanceStep s).S = s.S := by simp [advanceStep_eq]
@[simp] theorem advanceStep_BLKCNT (s : State) : (advanceStep s).BLKCNT = s.BLKCNT := by
  simp [advanceStep_eq]

/-- The engine reads its ROMs and never writes them (10_state.md R26, R27). -/
theorem engineStep_roms (s : State) : (engineStep s).K = s.K ∧ (engineStep s).S = s.S := by
  obtain ⟨-, e⟩ | ⟨-, -, e⟩ | ⟨-, -, -, e⟩ | ⟨-, -, -, e⟩ := engineStep_cases s <;> simp [e]

/-- The engine's step leaves `H` alone, or it is step 63 and feeds the new `W` forward, whichever
operation the block belongs to (41_block_processor.md R134). -/
theorem engineStep_H_cases (s : State) :
    (engineStep s).H = s.H ∨
    (s.I = 63 ∧ (engineStep s).H = s.H.add (stepFn s.K s.S s.I s.W s.M) ∧
      (engineStep s).BLKCNT = s.BLKCNT + 1) := by
  obtain ⟨-, e⟩ | ⟨hI, -, e⟩ | ⟨hI, -, -, e⟩ | ⟨hI, -, -, e⟩ := engineStep_cases s
  · exact .inl (by simp [e])
  all_goals exact .inr ⟨hI, by simp [e], by simp [e]⟩

-- ## The ROMs

/-- No effect of a step writes a ROM. -/
theorem StepEffect.keeps_roms {turn : Option Turn} (h : StepEffect turn s t) : t.K = s.K ∧ t.S = s.S := by
  cases h with
  | engine => exact engineStep_roms s
  | _ => exact ⟨rfl, rfl⟩

/-- What a read returns does not depend on the ROMs (20_memory.md R60). -/
theorem readPort_roms (s : State) (K : Vector Word 64) (S : Vector (BitVec 5) 64) (idx : BitVec 6) :
    readPort { s with K := K, S := S } idx = readPort s idx := rfl

/-- Settles O6: no effect of a step writes a ROM, and the values after reset are the tables. -/
theorem romsAreFixedAndUnreachable : Obligations.RomsAreFixedAndUnreachable := by
  unfold Obligations.RomsAreFixedAndUnreachable
  refine ⟨fun s t h => ?_, readPort_roms, by decide, by decide⟩
  exact (step_effect h).keeps_roms

-- ## The MD Buffer

/-- Settles O52: among the effects of a step, only those that clear the message and the engine's
step 63 change `H`. -/
theorem onlyThreeThingsWriteTheMdBuffer : Obligations.OnlyThreeThingsWriteTheMdBuffer := by
  unfold Obligations.OnlyThreeThingsWriteTheMdBuffer
  intro s t h hH
  cases step_effect h with
  | reset hturn => exact .inl (clearedTo_reset hturn)
  | abort v hturn hv => exact .inl (clearedTo_abort hturn hv)
  | init v ten hturn hv => exact .inl (clearedTo_init hturn hv)
  | engine hturn enabled =>
    obtain hkept | ⟨hI, hsum, hcount⟩ := engineStep_H_cases { s with agenda := s.agenda.tail }
    · exact absurd hkept hH
    · exact .inr ⟨(stepEnabled_iff.mp enabled).1, hI, by simpa using hturn, hsum, hcount⟩
  | _ => exact absurd rfl hH

-- ## STATUS

/-- The STATE field is the lowest one. -/
theorem statusWord_state (s : State) : (statusWord s).extractLsb' 0 3 = s.STATE.code :=
  BitVec.extractLsb'_append_eq_right

/-- Bits 3 to 7 are the five one-bit flags. -/
theorem statusWord_flags (s : State) :
    (statusWord s).getLsbD 3 = s.DV ∧ (statusWord s).getLsbD 4 = s.TV ∧
    (statusWord s).getLsbD 5 = s.TEN ∧ (statusWord s).getLsbD 6 = s.FIN ∧
    (statusWord s).getLsbD 7 = s.PEND2 := by
  simp only [statusWord, BitVec.getLsbD_append, BitVec.getLsbD_ofBool]
  simp

/-- Above the STATE field and the flags stand the step index, the error code and the reserved bits. -/
theorem statusWord_upper (s : State) (start len : Nat) (h : 8 ≤ start) :
    (statusWord s).extractLsb' start len =
      (0#12 ++ s.ERR_CODE.code ++ 0#2 ++ s.I).extractLsb' (start - 8) len := by
  unfold statusWord
  iterate 6 rw [BitVec.extractLsb'_append_eq_of_le (by omega)]
  rfl

theorem statusWord_step (s : State) : (statusWord s).extractLsb' 8 6 = s.I := by
  rw [statusWord_upper s 8 6 (by decide)]
  exact BitVec.extractLsb'_append_eq_right

theorem statusWord_errCode (s : State) : (statusWord s).extractLsb' 16 4 = s.ERR_CODE.code := by
  rw [statusWord_upper s 16 4 (by decide)]
  iterate 2 rw [BitVec.extractLsb'_append_eq_of_le (by decide)]
  exact BitVec.extractLsb'_append_eq_right

/-- The reserved bits 15:14 and 31:20 read 0. -/
theorem statusWord_reserved (s : State) :
    (statusWord s).extractLsb' 14 2 = 0#2 ∧ (statusWord s).extractLsb' 20 12 = 0#12 := by
  constructor
  · rw [statusWord_upper s 14 2 (by decide), BitVec.extractLsb'_append_eq_of_le (by decide)]
    exact BitVec.extractLsb'_append_eq_right
  · rw [statusWord_upper s 20 12 (by decide)]
    iterate 2 rw [BitVec.extractLsb'_append_eq_of_le (by decide)]
    exact BitVec.extractLsb'_append_eq_left

/-- A host write outside ERROR to a location other than CMD and the block buffer (60_exceptions.md
R227). -/
theorem step_badWrite {idx : BitVec 6} {v : Word} {rest : List Turn}
    (ha : s.agenda = .write idx v :: rest) (he : s.STATE ≠ .error) (h1 : idx ≠ 1)
    (h : idx.toNat < 48) : step s = .next (raiseError .badWrite { s with agenda := rest }) := by
  rw [step_cons ha]
  exact memWrite_badWrite he h1 h

/-- Settles O19: field by field, and STATUS as one of the read-only locations. -/
theorem statusFieldsAreAssembled : Obligations.StatusFieldsAreAssembled := by
  unfold Obligations.StatusFieldsAreAssembled
  refine ⟨fun s => ?_, fun s v rest ha he => step_badWrite ha he (by decide) (by decide), by decide⟩
  obtain ⟨hDV, hTV, hTEN, hFIN, hPEND2⟩ := statusWord_flags s
  obtain ⟨hlow, hhigh⟩ := statusWord_reserved s
  refine ⟨?_, hDV, hTV, hTEN, hFIN, hPEND2, statusWord_step s, hlow, ?_, hhigh⟩
  · rw [statusWord_state]
    cases s.STATE <;> rfl
  · rw [statusWord_errCode]
    cases s.ERR_CODE <;> rfl

end Sys2Proof.Machine
end

section
/-! The register map: what a read of each location returns, and that the read is one record more
(20_memory.md R55, R59, R60). -/

namespace Sys2Proof

/-- The low word of a 64-bit counter (20_memory.md R59). -/
theorem toNat_lowHalf (v : DWord) : (lowHalf v).toNat = v.toNat % 2 ^ 32 := by
  rw [lowHalf, BitVec.extractLsb'_toNat, Nat.shiftRight_zero]

/-- The high word of a 64-bit counter: the quotient by `2^32` is below `2^32` already. -/
theorem toNat_highHalf (v : DWord) : (highHalf v).toNat = v.toNat / 2 ^ 32 := by
  rw [highHalf, BitVec.extractLsb'_toNat, Nat.shiftRight_eq_div_pow]
  exact Nat.mod_eq_of_lt (Nat.div_lt_of_lt_mul v.isLt)

namespace Machine

variable {s : State} {idx : BitVec 6} {j : Nat}

-- ## One equation per region of the register map

theorem readPort_ID (h : idx.toNat = 0) : readPort s idx = idWord := by
  simp [readPort, h]

theorem readPort_STATUS (h : idx.toNat = 2) : readPort s idx = statusWord s := by
  simp [readPort, h]

theorem readPort_H (h : idx.toNat = 4 + j) (hj : j < 4) : readPort s idx = s.H.get j := by
  simp (disch := omega) only [readPort, h, if_pos, if_neg, Nat.add_sub_cancel_left]

theorem readPort_W (h : idx.toNat = 8 + j) (hj : j < 4) : readPort s idx = s.W.get j := by
  simp (disch := omega) only [readPort, h, if_pos, if_neg, Nat.add_sub_cancel_left]

theorem readPort_SNAP (h : idx.toNat = 12 + j) (hj : j < 4) : readPort s idx = s.SNAP.get j := by
  simp (disch := omega) only [readPort, h, if_pos, if_neg, Nat.add_sub_cancel_left]

theorem readPort_SNAP_IDX (h : idx.toNat = 16) : readPort s idx = s.SNAP_IDX := by
  simp [readPort, h]

theorem readPort_STEPCNT (h : idx.toNat = 17) : readPort s idx = s.STEPCNT := by
  simp [readPort, h]

theorem readPort_BITLEN_low (h : idx.toNat = 18) : readPort s idx = lowHalf s.BITLEN := by
  simp [readPort, h]

theorem readPort_BITLEN_high (h : idx.toNat = 19) : readPort s idx = highHalf s.BITLEN := by
  simp [readPort, h]

theorem readPort_BLKCNT_low (h : idx.toNat = 20) : readPort s idx = lowHalf s.BLKCNT := by
  simp [readPort, h]

theorem readPort_BLKCNT_high (h : idx.toNat = 21) : readPort s idx = highHalf s.BLKCNT := by
  simp [readPort, h]

theorem readPort_DIG (h : idx.toNat = 24 + j) (hj : j < 4) : readPort s idx = s.DIG.get j := by
  simp (disch := omega) only [readPort, h, if_pos, if_neg, Nat.add_sub_cancel_left]

theorem readPort_HEX (h : idx.toNat = 32 + j) (hj : j < 8) : readPort s idx = s.HEX[j] := by
  simp (disch := omega) only [readPort, h, if_pos, if_neg, Nat.add_sub_cancel_left, wordAt_of_lt]

theorem readPort_M (h : idx.toNat = 48 + j) (hj : j < 16) : readPort s idx = s.M[j] := by
  simp (disch := omega) only [readPort, h, if_pos, if_neg, Nat.add_sub_cancel_left, wordAt_of_lt]

/-- CMD and the reserved locations read 0: they are what the other regions leave over. -/
theorem readPort_unmapped
    (h : idx.toNat = 1 ∨ idx.toNat = 3 ∨ idx.toNat = 22 ∨ idx.toNat = 23 ∨
      (28 ≤ idx.toNat ∧ idx.toNat ≤ 31) ∨ (40 ≤ idx.toNat ∧ idx.toNat ≤ 47)) :
    readPort s idx = 0 := by
  simp (disch := omega) only [readPort, if_neg]

-- ## The read turn

/-- A read's turn records the value the location holds before the turn, and nothing else changes; the
agenda it stood in is no part of that value. -/
theorem step_read {rest : List Turn} (ha : s.agenda = .read idx :: rest) :
    step s = .next { s with agenda := rest, replies := s.replies ++ [⟨idx, readPort s idx⟩] } :=
  step_cons ha

/-- Settles O18: the value is `readPort`'s, region by region of the register map. -/
theorem readReturnsTheLocation : Obligations.ReadReturnsTheLocation := by
  unfold Obligations.ReadReturnsTheLocation
  intro s idx rest ha
  refine ⟨readPort s idx, step_read ha, readPort_ID, readPort_STATUS, ?_⟩
  refine ⟨(readPort_H (j := 0) · (by decide)), (readPort_H (j := 1) · (by decide)),
    (readPort_H (j := 2) · (by decide)), (readPort_H (j := 3) · (by decide)), ?_⟩
  refine ⟨(readPort_W (j := 0) · (by decide)), (readPort_W (j := 1) · (by decide)),
    (readPort_W (j := 2) · (by decide)), (readPort_W (j := 3) · (by decide)), ?_⟩
  refine ⟨(readPort_SNAP (j := 0) · (by decide)), (readPort_SNAP (j := 1) · (by decide)),
    (readPort_SNAP (j := 2) · (by decide)), (readPort_SNAP (j := 3) · (by decide)), ?_⟩
  refine ⟨readPort_SNAP_IDX, readPort_STEPCNT, fun h => ?_, fun h => ?_, fun h => ?_, fun h => ?_, ?_⟩
  · rw [readPort_BITLEN_low h, toNat_lowHalf]
  · rw [readPort_BITLEN_high h, toNat_highHalf]
  · rw [readPort_BLKCNT_low h, toNat_lowHalf]
  · rw [readPort_BLKCNT_high h, toNat_highHalf]
  refine ⟨(readPort_DIG (j := 0) · (by decide)), (readPort_DIG (j := 1) · (by decide)),
    (readPort_DIG (j := 2) · (by decide)), (readPort_DIG (j := 3) · (by decide)), ?_⟩
  exact ⟨fun r h => readPort_HEX h r.isLt, fun k h => readPort_M h k.isLt, readPort_unmapped⟩

end Machine

end Sys2Proof
end

section
/-! The padded message: the zeros the fill loop appends, the bytes of the length field, and the parts and
the length of `pad` (40_padder.md R100 to R103). -/

namespace Sys2Proof

@[simp] theorem length_le64 (v : DWord) : (le64 v).length = 8 := by simp [le64]

/-- Byte `j` of a 64-bit value as a number: the digit of weight `256 ^ j`. -/
theorem byteOf64_eq_ofNat (v : DWord) (j : Nat) : byteOf64 v j = BitVec.ofNat 8 (v.toNat / 256 ^ j) := by
  rw [byteOf64, BitVec.extractLsb', Nat.shiftRight_eq_div_pow, pow_mul,
    show 2 ^ 8 = 256 from rfl]

/-- The bytes of a number modulo `2 ^ 64`, least significant first (00_scope.md R10). -/
theorem le64_ofNat (n : Nat) :
    le64 (BitVec.ofNat 64 n) = (List.range 8).map fun j => BitVec.ofNat 8 (n % 2 ^ 64 / 256 ^ j) := by
  rw [le64, funext (byteOf64_eq_ofNat _), BitVec.toNat_ofNat]

namespace Machine

/-- The number of zero bytes after a message of `L` bytes: `(55 - L) mod 64` (40_padder.md R103). -/
def padZeros (L : Nat) : Nat := (119 - L % 64) % 64

theorem padZeros_lt (L : Nat) : padZeros L < 64 := Nat.mod_lt _ (by decide)

/-- The zeros bring the length to 56 modulo 64. -/
theorem padZeros_spec (L : Nat) : (L + 1 + padZeros L) % 64 = 56 := by
  rw [padZeros]
  omega

/-- The loop appends exactly the zeros that are missing, if it has the fuel for them: while one is missing
the length is not yet 56 modulo 64, because fewer than 64 are. -/
theorem zeroFill_eq_append_replicate {z fuel : Nat} {out : List Byte} (hz : z < 64) (hfuel : z ≤ fuel)
    (hlen : (out.length + z) % 64 = 56) :
    zeroFill fuel out = out ++ List.replicate z 0x00#8 := by
  induction z generalizing fuel out with
  | zero =>
    cases fuel with
    | zero => simp [zeroFill]
    | succ fuel => simp [zeroFill, show out.length % 64 = 56 from hlen]
  | succ z ih =>
    obtain ⟨fuel, rfl⟩ : ∃ f, fuel = f + 1 := ⟨fuel - 1, by omega⟩
    have hmissing : out.length % 64 ≠ 56 := by omega
    have hnext : ((out ++ [0x00#8]).length + z) % 64 = 56 := by
      rw [List.length_append, List.length_singleton]
      omega
    rw [zeroFill, if_pos hmissing, ih (by omega) (by omega) hnext, List.append_assoc,
      List.replicate_succ, List.singleton_append]

/-- The four parts of the padded message (40_padder.md R100). -/
theorem pad_eq (message : List Byte) :
    pad message = message ++ [0x80#8] ++ List.replicate (padZeros message.length) 0x00#8 ++
      le64 (BitVec.ofNat 64 (8 * message.length)) := by
  have hz := padZeros_lt message.length
  rw [pad, zeroFill_eq_append_replicate hz hz.le]
  rw [List.length_append, List.length_singleton]
  exact padZeros_spec message.length

/-- The length is the sum of the parts' lengths (40_padder.md R103). -/
theorem length_pad (message : List Byte) :
    (pad message).length = message.length + 1 + padZeros message.length + 8 := by
  simp only [pad_eq, List.length_append, List.length_singleton, List.length_replicate, length_le64]

/-- Settles O47: the parts are `pad_eq`'s, and since fewer than 64 zeros bring the length to 56 modulo 64,
the length field ends at the next multiple of 64. -/
theorem paddedMessageLengthAndParts : Obligations.PaddedMessageLengthAndParts := by
  unfold Obligations.PaddedMessageLengthAndParts
  intro message
  have hlen := length_pad message
  have hz := padZeros_lt message.length
  have hmod := padZeros_spec message.length
  refine ⟨by omega, by omega, by omega, padZeros message.length, hz, hmod, ?_⟩
  rw [← le64_ofNat]
  exact pad_eq message

end Machine

end Sys2Proof
end

section
/-! The Block Processor's step: the mixing functions bit by bit, the choices the step index makes, and
the step's sums as natural numbers (41_block_processor.md R120 to R131). -/

namespace Sys2Proof.Machine

open Sys2Proof

-- ## The mixing functions

/-- Bit `x` selects `y` (`x = 1`) or `z` (`x = 0`): the form rounds 1 and 2 share. -/
theorem bool_select (x y z : Bool) : ((x && y) || (!x && z)) = if x then y else z := by
  cases x <;> simp

section

variable (b c d : Word) {j : Nat}

theorem getLsbD_mix_first (hj : j < 32) :
    (mix .first b c d).getLsbD j = if b.getLsbD j then c.getLsbD j else d.getLsbD j := by
  simp only [mix, BitVec.getLsbD_or, BitVec.getLsbD_and, BitVec.getLsbD_not, hj, decide_true,
    Bool.true_and, bool_select]

/-- Round 2 is round 1 with D selecting. -/
theorem mix_second_eq_mix_first : mix .second b c d = mix .first d b c := rfl

theorem getLsbD_mix_third (j : Nat) :
    (mix .third b c d).getLsbD j = ((b.getLsbD j != c.getLsbD j) != d.getLsbD j) := by
  simp only [mix, BitVec.getLsbD_xor, Bool.bne_eq_xor]

theorem getLsbD_mix_fourth (hj : j < 32) :
    (mix .fourth b c d).getLsbD j = (c.getLsbD j != (b.getLsbD j || !d.getLsbD j)) := by
  simp only [mix, BitVec.getLsbD_xor, BitVec.getLsbD_or, BitVec.getLsbD_not, hj, decide_true,
    Bool.true_and, Bool.bne_eq_xor]

end

/-- Settles O8: one lemma per round. -/
theorem mixingFunctionsBitByBit : Obligations.MixingFunctionsBitByBit := by
  unfold Obligations.MixingFunctionsBitByBit
  intro b c d j hj
  refine ⟨getLsbD_mix_first b c d hj, ?_, getLsbD_mix_third b c d j, getLsbD_mix_fourth b c d hj⟩
  rw [mix_second_eq_mix_first]
  exact getLsbD_mix_first d b c hj

-- ## What the step index selects

/-- The round by comparison with the multiples of 16 (41_block_processor.md R120). -/
theorem roundOf_eq (i : BitVec 6) :
    roundOf i = if i.toNat < 16 then .first else if i.toNat < 32 then .second
      else if i.toNat < 48 then .third else .fourth := by
  revert i
  decide

/-- The message-word index without naming the round; in round 1 it is the step index itself
(41_block_processor.md R129). -/
theorem wordIndex_roundOf (i : BitVec 6) :
    wordIndex (roundOf i) i.toNat =
      if i.toNat < 16 then i.toNat else if i.toNat < 32 then (5 * i.toNat + 1) % 16
      else if i.toNat < 48 then (3 * i.toNat + 5) % 16 else 7 * i.toNat % 16 := by
  rw [roundOf_eq]
  split_ifs with h
  case pos => exact Nat.mod_eq_of_lt h
  all_goals rfl

/-- The rotation ROM holds each round's pattern of four, repeated; its 64 entries are a finite check
(41_block_processor.md R123). -/
theorem rotAmount_sRom (i : BitVec 6) :
    rotAmount sRom i =
      (if i.toNat < 16 then [7, 12, 17, 22] else if i.toNat < 32 then [5, 9, 14, 20]
        else if i.toNat < 48 then [4, 11, 16, 23] else [6, 10, 15, 21]).getD (i.toNat % 4) 0 := by
  revert i
  decide

-- ## The step's sums

/-- Reducing after each of the three sums is reducing once (00_scope.md R8). -/
theorem toNat_stepSum (K : Vector Word 64) (i : BitVec 6) (w : Quad) (X : Vector Word 16) :
    (stepSum K i w X).toNat =
      (w.A.toNat + (mix (roundOf i) w.B w.C w.D).toNat + (wordAt K i.toNat).toNat +
        (wordAt X (wordIndex (roundOf i) i.toNat)).toNat) % 2 ^ 32 := by
  simp only [stepSum, BitVec.toNat_add, Nat.mod_add_mod]

/-- The new B of a step, its rotation as a number (41_block_processor.md R131). -/
theorem toNat_stepFn_B (K : Vector Word 64) (S : Vector (BitVec 5) 64) (i : BitVec 6) (w : Quad)
    (X : Vector Word 16) :
    (stepFn K S i w X).B.toNat =
      (w.B.toNat + ((stepSum K i w X).toNat * 2 ^ rotAmount S i % 2 ^ 32 +
        (stepSum K i w X).toNat / 2 ^ (32 - rotAmount S i))) % 2 ^ 32 := by
  rw [stepFn, BitVec.toNat_add, toNat_rotl32]

/-- Settles O10: the new B from the lemmas on the sums, with the round, the word index and the amount
written out; the other three registers move by definition of the step. -/
theorem stepFunctionInNaturalArithmetic : Obligations.StepFunctionInNaturalArithmetic := by
  unfold Obligations.StepFunctionInNaturalArithmetic
  intro i w X n r g p amount tmp
  have hsum : (stepSum kRom i w X).toNat = tmp := by
    rw [toNat_stepSum, wordIndex_roundOf, roundOf_eq]
  have hamount : rotAmount sRom i = amount := rotAmount_sRom i
  refine ⟨rfl, ?_, rfl, rfl⟩
  rw [toNat_stepFn_B, hsum, hamount]

end Sys2Proof.Machine
end

section
/-! The digest registers: their bytes in the order of the digest, and the digits they print
(42_digest_encoder.md R160, R161, R163). -/

namespace Sys2Proof

/-- A field inside a byte is a field of the word. -/
theorem extractLsb'_byteOf (w : Word) (j : Nat) {start len : Nat} (h : start + len ≤ 8) :
    (byteOf w j).extractLsb' start len = w.extractLsb' (8 * j + start) len := by
  apply BitVec.eq_of_getLsbD_eq
  intro i hi
  have inside : start + i < 8 := by omega
  simp [byteOf, hi, inside, Nat.add_assoc]

/-- `bswap32` is the little-endian word of the four bytes taken in the opposite order (00_scope.md
R10). -/
theorem bswap32_eq_le32 (w : Word) :
    bswap32 w = le32 (byteOf w 3) (byteOf w 2) (byteOf w 1) (byteOf w 0) := rfl

/-- The swap mirrors the byte positions. -/
theorem byteOf_bswap32 (w : Word) {j : Nat} (hj : j < 4) : byteOf (bswap32 w) (3 - j) = byteOf w j := by
  obtain ⟨h0, h1, h2, h3⟩ := byteOf_le32 (byteOf w 3) (byteOf w 2) (byteOf w 1) (byteOf w 0)
  rw [bswap32_eq_le32]
  interval_cases j
  exacts [h3, h2, h1, h0]

/-- `Quad.get` answers its last word from index 3 on, so the equation needs no bound on `k`. -/
@[simp] theorem Quad.get_map (f : Word → Word) (q : Quad) (k : Nat) : (q.map f).get k = f (q.get k) := by
  match k with
  | 0 | 1 | 2 | _ + 3 => rfl

namespace Machine

/-- The first byte of the digest in a DIG register is its most significant one (42_digest_encoder.md
R163). -/
theorem byteOf_digWords (h : Quad) (k : Nat) {j : Nat} (hj : j < 4) :
    byteOf ((digWords h).get k) (3 - j) = byteOf (h.get k) j := by
  rw [digWords, Quad.get_map, byteOf_bswap32 _ hj]

/-- Character `c` without its case split: the digit at bit 4 of the byte for an even `c`, at bit 0 for
an odd one (42_digest_encoder.md R161). -/
theorem hexChar_eq (h : Quad) (c : Nat) :
    hexChar h c = hexDigit ((digestByte h (c / 2)).extractLsb' (4 - 4 * (c % 2)) 4) := by
  obtain hc | hc := Nat.mod_two_eq_zero_or_one c <;> simp [hexChar, hc]

/-- Character `c` is digit `c % 8` of DIG register `c / 8`, counted from the most significant. -/
theorem hexChar_eq_digWords (h : Quad) (c : Nat) :
    hexChar h c = hexDigit (((digWords h).get (c / 8)).extractLsb' (28 - 4 * (c % 8)) 4) := by
  have hbyte : digestByte h (c / 2) = byteOf ((digWords h).get (c / 8)) (3 - c / 2 % 4) := by
    rw [byteOf_digWords h _ (Nat.mod_lt _ (by decide)), digestByte, Nat.div_div_eq_div_mul]
  have hstart : 8 * (3 - c / 2 % 4) + (4 - 4 * (c % 2)) = 28 - 4 * (c % 8) := by omega
  rw [hexChar_eq, hbyte, extractLsb'_byteOf _ _ (by omega), hstart]

/-- Settles O30: byte by byte from the swap, and character by character from the digits of the
registers. -/
theorem digRegistersPrintTheDigest : Obligations.DigRegistersPrintTheDigest := by
  unfold Obligations.DigRegistersPrintTheDigest
  refine fun h => ⟨fun k j _ hj => ?_, List.map_congr_left fun c _ => hexChar_eq_digWords h c⟩
  rw [byteOf_digWords h k hj, digestByte, show (4 * k + j) / 4 = k by omega,
    show (4 * k + j) % 4 = j by omega]

end Machine

end Sys2Proof
end

section
/-! What the decoder accepts and what it rejects as BAD_FIELD: a word whose opcode stands for a command is
that command's encoding or has a bad field (30_encoding.md R82, R84, R85). -/

namespace Sys2Proof

/-- The checks of the decoder pass the fields of every command (30_encoding.md R84). -/
theorem decodeFields_fields (i : Instr) : decodeFields i.fields = .command i := by
  cases i with
  | init t => cases t <;> rfl
  | final n => simp [decodeFields, Instr.fields, commandOfOpcode]
  | _ => rfl

theorem decodeWord_encode (i : Instr) : decodeWord (encode i) = .command i := by
  rw [decodeWord, encode_eq_wordOfFields, fieldsOfWord_wordOfFields, decodeFields_fields]

theorem ofBool_beq_one : ∀ t : BitVec 1, BitVec.ofBool (t == 1#1) = t := by decide

/-- The fields of the command an opcode stands for: that opcode, `T` on INIT only, `N` on FINAL only
(30_encoding.md R82, R83). -/
theorem fields_of_commandOfOpcode {op : BitVec 4} {t : BitVec 1} {n : BitVec 6} {i : Instr}
    (h : commandOfOpcode op t n = some i) :
    i.fields = ⟨op, if op = 1 then t else 0, 0, if op = 3 then n else 0, 0⟩ := by
  unfold commandOfOpcode at h
  split at h
  case h_8 => cases h
  all_goals
    rename_i hop
    replace hop := congrArg (BitVec.ofNat 4) hop
    rw [BitVec.ofNat_toNat, BitVec.setWidth_eq] at hop
    subst hop
    cases h
    simp [Instr.fields, ofBool_beq_one]

/-- With a legal opcode, fields other than the command's own fail one of the three checks that follow
(30_encoding.md R84). -/
theorem decodeFields_badField {f : CommandFields} {i : Instr}
    (hop : commandOfOpcode f.op f.t f.n = some i) (hne : f ≠ i.fields) :
    decodeFields f = .reject .badField := by
  rw [decodeFields, hop]
  dsimp only
  split_ifs with hreserved htrace htail
  case neg =>
    have ht : f.op ≠ 1 → f.t = 0 := fun h =>
      (BitVec.eq_zero_or_eq_one f.t).resolve_right fun ht => htrace ⟨ht, h⟩
    have hn : f.op ≠ 3 → f.n = 0 := fun h => by_contra fun hn => htail ⟨hn, h⟩
    obtain ⟨hlow, hhigh⟩ : f.reservedLow = 0 ∧ f.reservedHigh = 0 := by simpa using hreserved
    refine absurd ?_ hne
    obtain ⟨op, t, lo, n, hi⟩ := f
    rw [fields_of_commandOfOpcode hop, CommandFields.mk.injEq]
    exact ⟨rfl, (ite_eq_left_iff.mpr fun h => (ht h).symm).symm, hlow,
      (ite_eq_left_iff.mpr fun h => (hn h).symm).symm, hhigh⟩
  all_goals rfl

/-- A word whose opcode stands for a command is that command's encoding, or it is rejected as
BAD_FIELD. -/
theorem decodeWord_badField {v : Word} {i : Instr}
    (hop : commandOfOpcode (v.extractLsb' 0 4) (v.extractLsb' 4 1) (v.extractLsb' 8 6) = some i)
    (hne : v ≠ encode i) : decodeWord v = .reject .badField := by
  apply decodeFields_badField hop
  rw [← fieldsOfWord_wordOfFields i.fields, ← encode_eq_wordOfFields]
  exact fun h => hne (fieldsOfWord_inj h)

end Sys2Proof
end

section
/-! The rules of the seven commands: each command's word, where it is legal and its effect there, and the
error it raises elsewhere (43_commands.md R183 to R189). -/

namespace Sys2Proof.Machine

open Sys2Proof

variable {s : State}

-- ## NOP

theorem exec_nop (s : State) : exec .nop s = .next s := by
  by_cases he : s.STATE = .error
  · exact exec_ignored he (by decide)
  · exact command_performed he rfl

/-- Settles O24: the guard of NOP lets it pass, and its effect is the identity. -/
theorem nopHasNoEffect : Obligations.NopHasNoEffect := by
  unfold Obligations.NopHasNoEffect
  refine ⟨decodeWord_encode .nop, fun v hop hne => ?_, exec_nop⟩
  exact decodeWord_badField (i := .nop) (by rw [hop]; rfl) hne

-- ## INIT

theorem exec_init (t : Bool) (he : s.STATE ≠ .error) (hb : s.STATE ≠ .busy) :
    exec (.init t) s = .next { clearMessageState s with TEN := t, STATE := .ready } := by
  unfold exec execInit
  exact command_performed he (by simpa using hb)

theorem exec_init_busy (t : Bool) (hb : s.STATE = .busy) :
    exec (.init t) s = .next (raiseError .badState s) := by
  unfold exec execInit
  exact command_rejected (by simp [hb]) (by simp [hb])

/-- The operand bit is outside the mask of INIT (30_encoding.md R82). -/
theorem encode_init_and_mask : ∀ t : Bool, encode (.init t) &&& 0xFFFFFFEF#32 = 0x00000001#32 := by
  decide

/-- Settles O25: the message is cleared, and only the trace enable and the sequencer state are left to
INIT. -/
theorem initOpensAFreshMessage : Obligations.InitOpensAFreshMessage := by
  unfold Obligations.InitOpensAFreshMessage
  refine ⟨fun t => decodeWord_encode (.init t), fun v hop hne => ?_, fun t s hs => ?_,
    fun t s => exec_init_busy t⟩
  · refine decodeWord_badField (i := .init (v.extractLsb' 4 1 == 1)) (by rw [hop]; rfl) ?_
    intro hv
    exact hne (hv ▸ encode_init_and_mask _)
  · obtain hs | hs | hs := hs <;> exact exec_init t (by simp [hs]) (by simp [hs])

-- ## BLOCK

theorem exec_block (h : s.STATE = .ready) :
    exec .block s = .next
      { s with BITLEN := s.BITLEN + blockBits, FIN := false, PEND2 := false, DV := false
               W := s.H, I := 0, STATE := .busy } := by
  unfold exec execBlock
  exact command_performed (by simp [h]) (by simp [h])

theorem exec_block_badState (he : s.STATE ≠ .error) (h : s.STATE ≠ .ready) :
    exec .block s = .next (raiseError .badState s) := by
  unfold exec execBlock
  exact command_rejected he (by simpa using h)

/-- Settles O26: the effect of BLOCK in READY, and its guard elsewhere. -/
theorem blockStartsTheOperation : Obligations.BlockStartsTheOperation := by
  unfold Obligations.BlockStartsTheOperation
  refine ⟨decodeWord_encode .block, fun v hop hne => ?_, fun s => exec_block, fun s hs => ?_⟩
  · exact decodeWord_badField (i := .block) (by rw [hop]; rfl) hne
  · obtain hs | hs | hs := hs <;> exact exec_block_badState (by simp [hs]) (by simp [hs])

-- ## FINAL

/-- The bits of the tail as a number (30_encoding.md R83). -/
theorem tailBits_eq_ofNat (n : BitVec 6) : tailBits n = BitVec.ofNat 64 (8 * n.toNat) := by
  apply BitVec.eq_of_toNat_eq
  simp [tailBits]

/-- A second padding block is needed for a tail of 56 bytes or more (40_padder.md R104). -/
theorem not_fitsOneBlock (n : BitVec 6) : (!fitsOneBlock n) = decide (56 ≤ n.toNat) := by
  rw [fitsOneBlock, ← decide_not]
  exact decide_eq_decide.mpr (by omega)

theorem exec_final (n : BitVec 6) (h : s.STATE = .ready) :
    exec (.final n) s = .next
      { s with BITLEN := s.BITLEN + tailBits n, M := paddedTail s.M n (s.BITLEN + tailBits n)
               FIN := true, PEND2 := !fitsOneBlock n, DV := false
               W := s.H, I := 0, STATE := .busy } := by
  unfold exec execFinal
  exact command_performed (by simp [h]) (by simp [h])

theorem exec_final_badState (n : BitVec 6) (he : s.STATE ≠ .error) (h : s.STATE ≠ .ready) :
    exec (.final n) s = .next (raiseError .badState s) := by
  unfold exec execFinal
  exact command_rejected he (by simpa using h)

/-- The operand bits are outside the mask of FINAL (30_encoding.md R82). -/
theorem encode_final_and_mask :
    ∀ n : BitVec 6, encode (.final n) &&& 0xFFFFC0FF#32 = 0x00000003#32 := by
  decide

/-- Settles O27: the buffer is the padded tail with the counted length, byte by byte. -/
theorem finalPadsTheTailAndStarts : Obligations.FinalPadsTheTailAndStarts := by
  unfold Obligations.FinalPadsTheTailAndStarts
  refine ⟨fun n => decodeWord_encode (.final n), fun v hop hne => ?_, fun n s hs => ?_, fun n s hs => ?_⟩
  · refine decodeWord_badField (i := .final (v.extractLsb' 8 6)) (by rw [hop]; rfl) ?_
    intro hv
    exact hne (hv ▸ encode_final_and_mask _)
  · rw [← tailBits_eq_ofNat, ← not_fitsOneBlock]
    exact ⟨_, exec_final n hs, fun j hj => blockByte_paddedTail _ _ _ hj⟩
  · obtain hs | hs | hs := hs <;> exact exec_final_badState n (by simp [hs]) (by simp [hs])

-- ## ENCODE

theorem exec_encode (h : s.STATE = .ready ∨ s.STATE = .done) : exec .encode s = .next (encodeAction s) := by
  unfold exec execEncode
  obtain h | h := h <;> exact command_performed (by simp [h]) (by simp [h])

theorem exec_encode_badState (h : s.STATE = .idle ∨ s.STATE = .busy) :
    exec .encode s = .next (raiseError .badState s) := by
  unfold exec execEncode
  obtain h | h := h <;> exact command_rejected (by simp [h]) (by simp [h])

/-- The characters stand in the HEX registers four to a word, the first in the lowest byte
(42_digest_encoder.md R164). -/
theorem byteOf_hexWords (h : Quad) {r j : Nat} (hr : r < 8) (hj : j < 4) :
    byteOf (wordAt (hexWords h) r) j = hexChar h (4 * r + j) := by
  rw [hexWords, wordAt_words8 _ hr]
  obtain ⟨h0, h1, h2, h3⟩ := byteOf_le32 (hexChar h (4 * r)) (hexChar h (4 * r + 1))
    (hexChar h (4 * r + 2)) (hexChar h (4 * r + 3))
  interval_cases j
  exacts [h0, h1, h2, h3]

/-- Settles O28: ENCODE writes `hexWords` of the MD Buffer, read back byte by byte. -/
theorem encodeWritesTheDigestRegisters : Obligations.EncodeWritesTheDigestRegisters := by
  unfold Obligations.EncodeWritesTheDigestRegisters
  refine ⟨decodeWord_encode .encode, fun v hop hne => ?_, fun s hs => ?_, fun s => exec_encode_badState⟩
  · exact decodeWord_badField (i := .encode) (by rw [hop]; rfl) hne
  · exact ⟨hexWords s.H, exec_encode hs, fun r j => byteOf_hexWords s.H⟩

-- ## TACK

theorem exec_tack (he : s.STATE ≠ .error) (h : s.TV = true) :
    exec .tack s = .next { s with TV := false } := by
  unfold exec execTack
  exact command_performed he h

theorem exec_tack_noSnapshot (he : s.STATE ≠ .error) (h : s.TV = false) :
    exec .tack s = .next (raiseError .noSnapshot s) := by
  unfold exec execTack
  exact command_rejected he h

/-- Settles O31: the guard of TACK is the held snapshot. -/
theorem tackLiftsTheHold : Obligations.TackLiftsTheHold := by
  unfold Obligations.TackLiftsTheHold
  refine ⟨decodeWord_encode .tack, fun v hop hne => ?_, fun s => exec_tack, fun s => exec_tack_noSnapshot⟩
  exact decodeWord_badField (i := .tack) (by rw [hop]; rfl) hne

-- ## ABORT

/-- Settles O32: ABORT stands under no guard, and in ERROR the port takes no other command word. -/
theorem abortGivesTheResetState : Obligations.AbortGivesTheResetState := by
  unfold Obligations.AbortGivesTheResetState
  refine ⟨decodeWord_encode .abort, fun v hop hne => ?_, fun s v rest ha he hne => ?_, fun s => rfl⟩
  · exact decodeWord_badField (i := .abort) (by rw [hop]; rfl) hne
  · rw [step_cons ha]
    exact memWrite_error he fun h => hne h.2

end Sys2Proof.Machine
end

section
/-! The block-buffer write and the engine's own step as turns of the agenda (43_commands.md R190, R201 to
R204). -/

namespace Sys2Proof.Machine

open Sys2Proof

variable {s : State} {rest : List Turn}

-- ## The block-buffer write

/-- A host write to element `k` of the block buffer, outside ERROR (43_commands.md R190). -/
theorem step_write_buffer {idx : BitVec 6} {k : Nat} {v : Word} (ha : s.agenda = .write idx v :: rest)
    (hidx : idx.toNat = 48 + k) (he : s.STATE ≠ .error) :
    step s = .next (writeM k v { s with agenda := rest }) := by
  have hk : idx.toNat - 48 = k := by omega
  rw [step_cons ha, ← hk]
  exact memWrite_buffer he (by omega)

/-- Settles O21: the write replaces one element, read back in words and in bytes. -/
theorem blockBufferWrite : Obligations.BlockBufferWrite := by
  unfold Obligations.BlockBufferWrite
  intro s idx k v rest ha hk hidx
  refine ⟨fun hs => ?_, fun hb => ?_, fun he => ?_⟩
  · have hb : s.STATE ≠ .busy := by obtain hs | hs | hs := hs <;> simp [hs]
    have he : s.STATE ≠ .error := by obtain hs | hs | hs := hs <;> simp [hs]
    refine ⟨setWord s.M k v, ?_, fun j => wordAt_setWord s.M v, fun j => blockByte_setWord s.M v⟩
    exact (step_write_buffer ha hidx he).trans (congrArg _ (writeM_performed hb))
  · exact (step_write_buffer ha hidx (by simp [hb])).trans (congrArg _ (writeM_busy hb))
  · have h1 : idx ≠ 1 := by
      rintro rfl
      simp at hidx
      omega
    rw [step_cons ha]
    exact memWrite_error he fun h => h1 h.1

-- ## The engine's step

@[simp] theorem advanceStep_FIN (s : State) : (advanceStep s).FIN = s.FIN := by simp [advanceStep_eq]
@[simp] theorem advanceStep_PEND2 (s : State) : (advanceStep s).PEND2 = s.PEND2 := by
  simp [advanceStep_eq]

/-- The engine's turn with a step enabled (43_commands.md R200). -/
theorem step_engine (ha : s.agenda = .engine :: rest) (hb : s.STATE = .busy)
    (hheld : ¬ (s.TEN = true ∧ s.TV = true)) :
    step s = .next (engineStep { s with agenda := rest }) := by
  have enabled : stepEnabled { s with agenda := rest } = true := stepEnabled_iff.mpr ⟨hb, hheld⟩
  rw [step_cons ha, runTurn, engineTurn_enabled enabled]

/-- Step 63 of a BLOCK operation (43_commands.md R202). -/
theorem engineStep_block (hI : s.I.toNat = 63) (hF : s.FIN = false) :
    engineStep s = completeBlock (finishBlock (advanceStep s)) := by
  rw [engineStep_last (by omega), completeOperation_block (by simpa using hF)]

/-- Step 63 of the first of two FINAL blocks (43_commands.md R203). -/
theorem engineStep_pad2 (hI : s.I.toNat = 63) (hF : s.FIN = true) (hP : s.PEND2 = true) :
    engineStep s = nextPadBlock (finishBlock (advanceStep s)) := by
  rw [engineStep_last (by omega), completeOperation_pad2 (by simpa using hF) (by simpa using hP)]

/-- Step 63 of the last FINAL block (43_commands.md R204). -/
theorem engineStep_final (hI : s.I.toNat = 63) (hF : s.FIN = true) (hP : s.PEND2 = false) :
    engineStep s = completeFinal (finishBlock (advanceStep s)) := by
  rw [engineStep_last (by omega), completeOperation_final (by simpa using hF) (by simpa using hP)]

/-- Settles O42: `advanceStep` gives the part that the four forms share, and each form adds its
completion. -/
theorem engineStepIsOneTransition : Obligations.EngineStepIsOneTransition := by
  unfold Obligations.EngineStepIsOneTransition
  intro s rest ha hb hheld w h u
  let s₀ : State := { s with agenda := rest }
  have hu : advanceStep s₀ = u := advanceStep_eq s₀
  have hstep : step s = .next (engineStep s₀) := step_engine ha hb hheld
  refine ⟨fun hI => ?_, fun hI hF => ?_, fun hI hF hP => ⟨secondPadBlock s.BITLEN, ?_, ?_⟩,
    fun hI hF hP => ?_⟩
  · rw [hstep, engineStep_within (s := s₀) hI, hu]
  · rw [hstep, engineStep_block (s := s₀) hI hF, hu]
    rfl
  · rw [hstep, engineStep_pad2 (s := s₀) hI hF hP, hu]
    rfl
  · exact fun j => blockByte_secondPadBlock s.BITLEN
  · rw [hstep, engineStep_final (s := s₀) hI hF hP, hu]
    rfl

end Sys2Proof.Machine
end

section
/-! The decoder's rejections, read off the opcode and the fields, and what a decoded word is
(30_encoding.md R84, R85). -/

namespace Sys2Proof

/-- The reserved opcodes are 0x6 to 0xE (30_encoding.md R82). -/
theorem commandOfOpcode_eq_none_iff {op : BitVec 4} {t : BitVec 1} {n : BitVec 6} :
    commandOfOpcode op t n = none ↔ 6 ≤ op.toNat ∧ op.toNat ≤ 14 := by
  have hlt := op.isLt
  unfold commandOfOpcode
  split
  case h_8 =>
    simp only [imp_false] at *
    exact iff_of_true trivial (by omega)
  all_goals exact iff_of_false nofun (by omega)

/-- Every other opcode stands for a command. -/
theorem exists_commandOfOpcode {op : BitVec 4} (t : BitVec 1) (n : BitVec 6)
    (h : op.toNat ≤ 5 ∨ op = 15#4) : ∃ i, commandOfOpcode op t n = some i := by
  rw [← Option.ne_none_iff_exists', Ne, commandOfOpcode_eq_none_iff]
  obtain h | rfl := h
  · omega
  · decide

theorem decodeWord_badOpcode {v : Word} (h6 : 6 ≤ (v.extractLsb' 0 4).toNat)
    (h14 : (v.extractLsb' 0 4).toNat ≤ 14) : decodeWord v = .reject .badOpcode := by
  have hop : commandOfOpcode (fieldsOfWord v).op (fieldsOfWord v).t (fieldsOfWord v).n = none :=
    commandOfOpcode_eq_none_iff.mpr ⟨h6, h14⟩
  rw [decodeWord, decodeFields, hop]

/-- With a legal opcode, a reserved bit, a `T` on other than INIT or an `N` on other than FINAL is a field
that no command has (30_encoding.md R85). -/
theorem decodeFields_illegal {f : CommandFields} (hop : f.op.toNat ≤ 5 ∨ f.op = 15#4)
    (hbad : f.reservedLow ≠ 0 ∨ f.reservedHigh ≠ 0 ∨ (f.t ≠ 0 ∧ f.op ≠ 1) ∨ (f.n ≠ 0 ∧ f.op ≠ 3)) :
    decodeFields f = .reject .badField := by
  obtain ⟨i, hi⟩ := exists_commandOfOpcode f.t f.n hop
  refine decodeFields_badField hi fun hf => ?_
  rw [fields_of_commandOfOpcode hi] at hf
  obtain hlow | hhigh | ⟨ht, h1⟩ | ⟨hn, h3⟩ := hbad
  · exact hlow (congrArg CommandFields.reservedLow hf)
  · exact hhigh (congrArg CommandFields.reservedHigh hf)
  · exact ht ((congrArg CommandFields.t hf).trans (if_neg h1))
  · exact hn ((congrArg CommandFields.n hf).trans (if_neg h3))

theorem extractLsb'_one_ne_zero {v : Word} {j : Nat} (h : v.getLsbD j = true) :
    v.extractLsb' j 1 ≠ 0 := by
  intro h0
  have hbit := congrArg (BitVec.getLsbD · 0) h0
  simp [h] at hbit

/-- A word that decodes to a command is that command's encoding (30_encoding.md R82, R84). -/
theorem eq_encode_of_decodeWord {v : Word} {i : Instr} (h : decodeWord v = .command i) : v = encode i := by
  cases hop : commandOfOpcode (fieldsOfWord v).op (fieldsOfWord v).t (fieldsOfWord v).n with
  | none => simp [decodeWord, decodeFields, hop] at h
  | some j =>
    by_cases hv : v = encode j
    · have hj := decodeWord_encode j
      rw [← hv, h] at hj
      exact hv.trans (congrArg encode (Decoded.command.inj hj).symm)
    · exact absurd (h.symm.trans (decodeWord_badField hop hv)) (by simp)

end Sys2Proof
end

section
/-! Errors: what raises each of them, and the ways into and out of ERROR (60_exceptions.md R220 to R232). -/

namespace Sys2Proof.Machine

open Sys2Proof

variable {s t : State}

-- ## CMD writes outside ERROR

section
variable {v : Word} {rest : List Turn} (ha : s.agenda = .write 1 v :: rest) (he : s.STATE ≠ .error)
include ha he

theorem step_write_command : step s = executeCommand v { s with agenda := rest } :=
  (step_cons ha).trans (memWrite_command he)

/-- The word of a command runs that command (30_encoding.md R84). -/
theorem step_command {i : Instr} (hv : decodeWord v = .command i) :
    step s = exec i { s with agenda := rest } := by
  rw [step_write_command ha he, executeCommand, hv]

/-- A word that the decoder rejects raises the decoder's error (30_encoding.md R84). -/
theorem step_command_rejected {e : DecodeError} (hv : decodeWord v = .reject e) :
    step s = .next (raiseError (DecodeError.toErrCode e) { s with agenda := rest }) := by
  rw [step_write_command ha he, executeCommand, hv]

end

/-- Settles O17: the decoder's two rejections, each raised by the CMD write. -/
theorem illegalWordsRaiseTheirError : Obligations.IllegalWordsRaiseTheirError := by
  unfold Obligations.IllegalWordsRaiseTheirError
  intro s v rest ha he
  refine ⟨fun h6 h14 => step_command_rejected ha he (decodeWord_badOpcode h6 h14), fun hop hbad => ?_⟩
  refine step_command_rejected ha he (decodeFields_illegal (f := fieldsOfWord v) hop ?_)
  exact hbad.imp_right <| Or.imp_right <| Or.imp_left <| And.imp_left extractLsb'_one_ne_zero

/-- Settles O37: the word decodes to its command, and the command's guard rejects the state. -/
theorem commandInWrongStateRaisesBadState : Obligations.CommandInWrongStateRaisesBadState := by
  unfold Obligations.CommandInWrongStateRaisesBadState
  intro s i rest ha h
  have run (he : s.STATE ≠ .error) : step s = exec i { s with agenda := rest } :=
    step_command ha he (decodeWord_encode i)
  obtain ⟨⟨ten, rfl⟩, hb⟩ | ⟨hi, hs⟩ | ⟨rfl, hs⟩ := h
  · exact (run (by simp [hb])).trans (exec_init_busy ten hb)
  · have he : s.STATE ≠ .error := by obtain hs | hs | hs := hs <;> simp [hs]
    have hr : s.STATE ≠ .ready := by obtain hs | hs | hs := hs <;> simp [hs]
    obtain rfl | ⟨n, rfl⟩ := hi
    · exact (run he).trans (exec_block_badState he hr)
    · exact (run he).trans (exec_final_badState n he hr)
  · have he : s.STATE ≠ .error := by obtain hs | hs := hs <;> simp [hs]
    exact (run he).trans (exec_encode_badState hs)

-- ## Writes to the other locations

/-- Settles O20: the port writes CMD and the block buffer only. -/
theorem writeToReadOnlyLocationRaisesBadWrite : Obligations.WriteToReadOnlyLocationRaisesBadWrite := by
  unfold Obligations.WriteToReadOnlyLocationRaisesBadWrite
  intro s idx v rest ha he h1 h48
  exact step_badWrite ha he (fun h => h1 (congrArg BitVec.toNat h)) h48

-- ## The ways out of ERROR and into it

/-- Settles O40: of the effects of a step that ERROR does not exclude, only reset's and ABORT's write
STATE. -/
theorem onlyAbortOrResetLeavesError : Obligations.OnlyAbortOrResetLeavesError := by
  unfold Obligations.OnlyAbortOrResetLeavesError
  intro s t he h ht
  cases step_effect h with
  | reset hturn => exact ⟨.inl hturn, rfl⟩
  | abort v hturn hv =>
    obtain rfl : v = 0x0000000F#32 := eq_encode_of_decodeWord hv
    exact ⟨.inr (nextWrite_cases hturn), rfl⟩
  | engine _ enabled => simp [stepEnabled_iff, he] at enabled
  | error _ _ _ _ herror => exact absurd he herror
  | init _ _ _ _ _ herror => exact absurd he herror
  | block _ _ _ hready => simp [he] at hready
  | final _ _ _ _ hready => simp [he] at hready
  | _ => exact absurd he ht

/-- An engine step goes on in BUSY or completes the operation; it never fails (60_exceptions.md R230). -/
theorem engineStep_STATE_ne_error (hb : s.STATE = .busy) : (engineStep s).STATE ≠ .error := by
  have hadvance : (advanceStep s).STATE = .busy := by simp [advanceStep_eq, hb]
  obtain ⟨-, e⟩ | ⟨-, -, e⟩ | ⟨-, -, -, e⟩ | ⟨-, -, -, e⟩ := engineStep_cases s <;> simp [e, hadvance]

/-- Settles O41: of the effects of a step, only the error's ends in ERROR where it did not begin there. -/
theorem errorsArePreciseAndRaisedByWrites : Obligations.ErrorsArePreciseAndRaisedByWrites := by
  unfold Obligations.ErrorsArePreciseAndRaisedByWrites
  intro s t he h ht
  cases step_effect h with
  | error code idx v hturn _ hcode =>
    obtain ⟨turn, hhead, hwrite⟩ := nextWrite_cases hturn
    exact ⟨⟨turn, hhead, by simp [hwrite]⟩, hcode, rfl⟩
  | engine _ enabled => exact absurd ht (engineStep_STATE_ne_error (stepEnabled_iff.mp enabled).1)
  | reset => simp at ht
  | abort => simp at ht
  | init => simp at ht
  | block => simp at ht
  | final => simp at ht
  | _ => exact absurd ht he

end Sys2Proof.Machine
end

section
/-! The reset input as a turn of the agenda (70_reset_and_hazards.md R250). -/

namespace Sys2Proof.Machine

open Sys2Proof

variable {s : State} {rest : List Turn}

/-- The reset input takes effect under no guard. -/
theorem step_reset (ha : s.agenda = .reset :: rest) :
    step s = .next (resetEffect { s with agenda := rest }) :=
  step_cons ha

/-- Where the ROMs hold their tables, the effect of reset is the state after reset. -/
theorem resetEffect_eq_reset (hK : s.K = kRom) (hS : s.S = sRom) :
    resetEffect s = { State.reset with agenda := s.agenda, replies := s.replies } := by
  rw [State.reset, ← hK, ← hS]
  rfl

/-- Settles O1: the step is the reset effect, which ABORT has too. -/
theorem resetGivesEveryElementItsValue : Obligations.ResetGivesEveryElementItsValue := by
  unfold Obligations.ResetGivesEveryElementItsValue
  refine ⟨fun s rest ha => ?_, fun s rest ha hK hS => ?_, fun s rest ha => ?_⟩
  · exact step_reset ha
  · rw [step_reset ha, resetEffect_eq_reset (s := { s with agenda := rest }) hK hS]
  · exact step_reset ha

end Sys2Proof.Machine
end

section
/-! The decoder and the encoder as inverses, and the decoder in terms of match and mask, of the fields
and of the names of its rejections (30_encoding.md R80 to R85). -/

namespace Sys2Proof

theorem decodeWord_eq_command_iff {v : Word} {i : Instr} : decodeWord v = .command i ↔ encode i = v := by
  constructor
  · exact fun h => (eq_encode_of_decodeWord h).symm
  · rintro rfl
    exact decodeWord_encode i

/-- Settles O11: every encoding decodes to its command, and a word that decodes is an encoding. -/
theorem decodeIsTheInverseOfEncode : Obligations.DecodeIsTheInverseOfEncode := by
  unfold Obligations.DecodeIsTheInverseOfEncode
  exact fun v i => decodeWord_eq_command_iff

-- ## Match and mask

/-- The mask of a row without operands is the whole word (30_encoding.md R82). -/
theorem and_allOnes_eq_iff {v w : Word} : v &&& 0xFFFFFFFF#32 = w ↔ w = v := by
  rw [show (0xFFFFFFFF#32 : Word) = BitVec.allOnes 32 from rfl, BitVec.and_allOnes, eq_comm]

/-- The encoding of INIT is its match with `T` in bit 4 (30_encoding.md R83). -/
theorem encode_init_eq_iff {v : Word} {t : Bool} :
    encode (.init t) = v ↔ v &&& 0xFFFFFFEF#32 = 0x00000001#32 ∧ v.getLsbD 4 = t := by
  constructor
  · rintro rfl
    cases t <;> decide
  · rintro ⟨hmask, rfl⟩
    have hsplit : v = v &&& 0xFFFFFFEF#32 ||| (BitVec.ofBool (v.getLsbD 4)).setWidth 32 <<< 4 := by
      apply BitVec.eq_of_getLsbD_eq
      intro i hi
      simp only [BitVec.getLsbD_or, BitVec.getLsbD_and, BitVec.getLsbD_shiftLeft, BitVec.getLsbD_setWidth]
      interval_cases i <;> simp
    rw [encode, ← hmask, ← hsplit]

/-- The encoding of FINAL is its match with `N` in bits 13:8 (30_encoding.md R83). -/
theorem encode_final_eq_iff {v : Word} {n : BitVec 6} :
    encode (.final n) = v ↔ v &&& 0xFFFFC0FF#32 = 0x00000003#32 ∧ v.extractLsb' 8 6 = n := by
  constructor
  · rintro rfl
    revert n
    decide
  · rintro ⟨hmask, rfl⟩
    have hsplit : v = v &&& 0xFFFFC0FF#32 ||| (v.extractLsb' 8 6).setWidth 32 <<< 8 := by
      apply BitVec.eq_of_getLsbD_eq
      intro i hi
      simp only [BitVec.getLsbD_or, BitVec.getLsbD_and, BitVec.getLsbD_shiftLeft, BitVec.getLsbD_setWidth,
        BitVec.getLsbD_extractLsb']
      interval_cases i <;> simp
    rw [encode, ← hmask, ← hsplit]

/-- Settles O12: a word decodes to a command exactly when it is the command's encoding, which is the match
of its row with the operand bits put in. -/
theorem decoderFollowsMatchAndMask : Obligations.DecoderFollowsMatchAndMask := by
  unfold Obligations.DecoderFollowsMatchAndMask
  intro v
  refine ⟨?_, fun t => ?_, ?_, fun n => ?_, ?_, ?_, ?_⟩ <;> rw [decodeWord_eq_command_iff]
  case refine_2 => exact encode_init_eq_iff
  case refine_4 => exact encode_final_eq_iff
  all_goals exact and_allOnes_eq_iff.symm

-- ## Illegal words

/-- The opcode is one of the seven (30_encoding.md R82). -/
def CommandFields.LegalOpcode (f : CommandFields) : Prop := f.op.toNat ≤ 5 ∨ f.op = 15#4

/-- A reserved bit is set, or `T` on other than INIT, or `N` on other than FINAL (30_encoding.md R85). -/
def CommandFields.BadField (f : CommandFields) : Prop :=
  f.reservedLow ≠ 0 ∨ f.reservedHigh ≠ 0 ∨ (f.t ≠ 0 ∧ f.op ≠ 1) ∨ (f.n ≠ 0 ∧ f.op ≠ 3)

theorem toNat_eq_fifteen_iff {op : BitVec 4} : op.toNat = 15 ↔ op = 15#4 := BitVec.toNat_inj (y := 15#4)

/-- The opcodes that are not legal are the reserved ones (30_encoding.md R82). -/
theorem CommandFields.not_legalOpcode_iff (f : CommandFields) :
    ¬ f.LegalOpcode ↔ 6 ≤ f.op.toNat ∧ f.op.toNat ≤ 14 := by
  have hlt := f.op.isLt
  rw [LegalOpcode, ← toNat_eq_fifteen_iff]
  omega

/-- The four checks of well-formedness are the two kinds of fault of R85, each ruled out. -/
theorem CommandFields.wellFormed_iff (f : CommandFields) :
    f.wellFormed = true ↔ f.LegalOpcode ∧ ¬ f.BadField := by
  simp only [wellFormed, opcodeLegal, reservedZero, traceAllowed, tailAllowed, LegalOpcode, BadField,
    Bool.and_eq_true, Bool.or_eq_true, decide_eq_true_eq, beq_iff_eq, toNat_eq_fifteen_iff]
  tauto

/-- Well-formed fields are those of the command their opcode stands for. -/
theorem CommandFields.exists_fields_eq {f : CommandFields} (hop : f.LegalOpcode) (hbad : ¬ f.BadField) :
    ∃ i : Instr, i.fields = f := by
  obtain ⟨i, hi⟩ := exists_commandOfOpcode f.t f.n hop
  simp only [BadField, not_or, not_and, not_not, ne_eq] at hbad
  obtain ⟨hlow, hhigh, ht, hn⟩ := hbad
  refine ⟨i, ?_⟩
  rw [fields_of_commandOfOpcode hi]
  obtain ⟨op, t, low, n, high⟩ := f
  rw [CommandFields.mk.injEq]
  exact ⟨rfl, ite_eq_left_iff.mpr fun h => by_contra fun h' => h (ht (Ne.symm h')), hlow.symm,
    ite_eq_left_iff.mpr fun h => by_contra fun h' => h (hn (Ne.symm h')), hhigh.symm⟩

/-- Everything the decoder can answer, and when (30_encoding.md R84). -/
theorem decodeWord_cases (v : Word) :
    (decodeWord v = .reject .badOpcode ∧ ¬ (fieldsOfWord v).LegalOpcode) ∨
    (decodeWord v = .reject .badField ∧ (fieldsOfWord v).LegalOpcode ∧ (fieldsOfWord v).BadField) ∨
    ∃ i, decodeWord v = .command i ∧ (fieldsOfWord v).LegalOpcode ∧ ¬ (fieldsOfWord v).BadField := by
  by_cases hop : (fieldsOfWord v).LegalOpcode
  · by_cases hbad : (fieldsOfWord v).BadField
    · exact .inr (.inl ⟨decodeFields_illegal hop hbad, hop, hbad⟩)
    · obtain ⟨i, hi⟩ := CommandFields.exists_fields_eq hop hbad
      exact .inr (.inr ⟨i, by rw [decodeWord, ← hi, decodeFields_fields], hop, hbad⟩)
  · obtain ⟨h6, h14⟩ := (CommandFields.not_legalOpcode_iff _).mp hop
    exact .inl ⟨decodeWord_badOpcode h6 h14, hop⟩

theorem decodeWord_eq_badOpcode_iff (v : Word) :
    decodeWord v = .reject .badOpcode ↔ ¬ (fieldsOfWord v).LegalOpcode := by
  obtain ⟨hv, h⟩ | ⟨hv, hop, -⟩ | ⟨i, hv, hop, -⟩ := decodeWord_cases v <;> simp [*]

theorem decodeWord_eq_badField_iff (v : Word) :
    decodeWord v = .reject .badField ↔ (fieldsOfWord v).LegalOpcode ∧ (fieldsOfWord v).BadField := by
  obtain ⟨hv, hop⟩ | ⟨hv, hop, hbad⟩ | ⟨i, hv, hop, hbad⟩ := decodeWord_cases v <;> simp [*]

theorem exists_decodeWord_eq_command_iff (v : Word) :
    (∃ i, decodeWord v = .command i) ↔ (fieldsOfWord v).LegalOpcode ∧ ¬ (fieldsOfWord v).BadField := by
  obtain ⟨hv, hop⟩ | ⟨hv, hop, hbad⟩ | ⟨i, hv, hop, hbad⟩ := decodeWord_cases v <;> simp [*]

/-- The one-bit field `T` as a bit of the word. -/
theorem fieldsOfWord_t_ne_zero_iff (v : Word) : (fieldsOfWord v).t ≠ 0 ↔ v.getLsbD 4 = true := by
  refine ⟨fun h => by_contra fun h4 => h ?_, extractLsb'_one_ne_zero⟩
  apply BitVec.eq_of_getLsbD_eq
  intro i hi
  obtain rfl : i = 0 := by omega
  simpa [fieldsOfWord] using h4

/-- Settles O13: the two rejections of the decoder, in terms of the bits of the word. -/
theorem illegalWordsAreRejectedByName : Obligations.IllegalWordsAreRejectedByName := by
  unfold Obligations.IllegalWordsAreRejectedByName
  intro v
  rw [decodeWord_eq_badOpcode_iff, CommandFields.not_legalOpcode_iff, decodeWord_eq_badField_iff,
    CommandFields.BadField, fieldsOfWord_t_ne_zero_iff]
  exact ⟨Iff.rfl, Iff.rfl⟩

/-- Settles O14: the accepted words are those with neither fault, and the fields of an encoding are its
command's. -/
theorem decoderAcceptsExactlyWellFormedWords : Obligations.DecoderAcceptsExactlyWellFormedWords := by
  unfold Obligations.DecoderAcceptsExactlyWellFormedWords
  refine ⟨fun v => ?_, fun i => ?_⟩
  · rw [exists_decodeWord_eq_command_iff, CommandFields.wellFormed_iff]
  · have hfields : fieldsOfWord (encode i) = i.fields := by
      rw [encode_eq_wordOfFields, fieldsOfWord_wordOfFields]
    refine ⟨hfields, ?_⟩
    rw [Instr.wellFormed, CommandFields.wellFormed_iff, ← hfields, ← exists_decodeWord_eq_command_iff]
    exact ⟨i, decodeWord_encode i⟩

/-- Settles O15: each word is the encoding of its command, or has a reserved opcode or a reserved bit
set. -/
theorem wordsOfTheTableDecode : Obligations.WordsOfTheTableDecode := by
  unfold Obligations.WordsOfTheTableDecode
  refine ⟨decodeWord_encode .nop, decodeWord_encode (.init true), decodeWord_encode (.final 55),
    decodeWord_encode .abort, ?_, ?_⟩
  · exact decodeWord_badOpcode (by decide) (by decide)
  · exact decodeFields_illegal (.inl (by decide)) (.inr (.inl (by decide)))

end Sys2Proof
end

section
/-! What every step keeps: the invariants of the engine, a block in progress, and the agreement of the
counters (10_state.md R36 to R42; 41_block_processor.md R131 to R135). -/

namespace Sys2Proof.Machine

open Sys2Proof

variable {s t : State} {turn : Option Turn}

-- ## The other fields after the first lines of the engine's step

@[simp] theorem advanceStep_M (s : State) : (advanceStep s).M = s.M := by simp [advanceStep_eq]
@[simp] theorem advanceStep_STATE (s : State) : (advanceStep s).STATE = s.STATE := by
  simp [advanceStep_eq]
@[simp] theorem advanceStep_I (s : State) : (advanceStep s).I = s.I := by simp [advanceStep_eq]
@[simp] theorem advanceStep_TEN (s : State) : (advanceStep s).TEN = s.TEN := by simp [advanceStep_eq]
@[simp] theorem advanceStep_TV (s : State) : (advanceStep s).TV = (s.TEN || s.TV) := by
  simp [advanceStep_eq]
@[simp] theorem advanceStep_DV (s : State) : (advanceStep s).DV = s.DV := by simp [advanceStep_eq]
@[simp] theorem advanceStep_ERR_CODE (s : State) : (advanceStep s).ERR_CODE = s.ERR_CODE := by
  simp [advanceStep_eq]
@[simp] theorem advanceStep_SNAP_IDX (s : State) :
    (advanceStep s).SNAP_IDX = if s.TEN then s.STEPCNT + 1 else s.SNAP_IDX := by
  simp [advanceStep_eq]
@[simp] theorem advanceStep_STEPCNT (s : State) : (advanceStep s).STEPCNT = s.STEPCNT + 1 := by
  simp [advanceStep_eq]
@[simp] theorem advanceStep_BITLEN (s : State) : (advanceStep s).BITLEN = s.BITLEN := by
  simp [advanceStep_eq]

-- ## R42

theorem resetEffect_inv (s : State) : (resetEffect s).Inv := by simp [State.Inv, State.RuleR42]

/-- An error leaves the flags and the digest alone, and ERROR allows what BUSY allowed. -/
theorem raiseError_inv {code : ErrCode} (hcode : code ≠ .none) (hi : s.Inv) : (raiseError code s).Inv := by
  obtain ⟨⟨hpend, -, htv, -, -, hdig⟩, -⟩ := hi
  exact ⟨⟨hpend, fun _ => .inr rfl, htv, iff_of_true hcode rfl, fun _ h => absurd rfl h, hdig⟩, nofun⟩

/-- The encoding of the current `H` sets `DV`; its caller is not in BUSY. -/
theorem encodeAction_inv (hb : s.STATE ≠ .busy) (hi : s.Inv) : (encodeAction s).Inv := by
  obtain ⟨⟨hpend, hfin, htv, herr, hI, -⟩, -⟩ := hi
  exact ⟨⟨hpend, hfin, htv, herr, hI, fun _ => ⟨rfl, rfl⟩⟩, fun h => absurd h hb⟩

/-- An engine step keeps the invariants: `DV` is clear until the encoding of the new `H` sets it. -/
theorem engineStep_inv (hb : s.STATE = .busy) (hi : s.Inv) : (engineStep s).Inv := by
  obtain ⟨⟨hpend, -, htv, herr, -, -⟩, hdv⟩ := hi
  replace hdv := hdv hb
  replace herr : s.ERR_CODE = .none := by simpa [hb] using herr
  replace htv : s.TEN = true ∨ s.TV = true → s.TEN = true := (·.elim id htv)
  obtain ⟨-, e⟩ | ⟨-, hF, e⟩ | ⟨-, hF, hP, e⟩ | ⟨-, hF, hP, e⟩ := engineStep_cases s
  · simpa [State.Inv, State.RuleR42, e, hb, hdv, herr] using ⟨hpend, htv⟩
  · have hP : s.PEND2 = false := by simpa [hF] using hpend
    simpa [State.Inv, State.RuleR42, e, hF, hP, hdv, herr] using htv
  · simpa [State.Inv, State.RuleR42, e, hb, hdv, herr] using htv
  · simpa [State.Inv, State.RuleR42, e, hP, herr] using htv

/-- Every effect of a step keeps the invariants. -/
theorem StepEffect.keeps_inv (h : StepEffect turn s t) (hi : s.Inv) : t.Inv := by
  have ⟨⟨hpend, hfin, htv, herr, hI, hdig⟩, hdv⟩ := hi
  have ready_err (hs : s.STATE = .ready) : s.ERR_CODE = .none := by simpa [hs] using herr
  cases h with
  | engine _ enabled => exact engineStep_inv (stepEnabled_iff.mp enabled).1 hi
  | error _ _ _ _ _ hcode => exact raiseError_inv hcode hi
  | init => simp [State.Inv, State.RuleR42]
  | block _ _ _ hready => simpa [State.Inv, State.RuleR42] using ⟨htv, ready_err hready⟩
  | final _ _ _ _ hready => simpa [State.Inv, State.RuleR42] using ⟨htv, ready_err hready⟩
  | encode _ _ _ hstate => exact encodeAction_inv (by obtain hs | hs := hstate <;> simp [hs]) hi
  | tack => exact ⟨⟨hpend, hfin, nofun, herr, hI, hdig⟩, hdv⟩
  | reset => exact resetEffect_inv s
  | abort => exact resetEffect_inv s
  | _ => exact hi

/-- Settles O3: the invariants do not speak of the agenda, and every effect of a step keeps them. -/
theorem everyStepKeepsInv : Obligations.EveryStepKeepsInv := by
  unfold Obligations.EveryStepKeepsInv
  exact fun s t hi h => (step_effect h).keeps_inv hi

-- ## A block in progress

/-- Step `i` takes the value after `i` steps to the value after `i + 1` (41_block_processor.md R132). -/
theorem stepsUpTo_succ (K : Vector Word 64) (S : Vector (BitVec 5) 64) (h : Quad) (X : Vector Word 16)
    (i : BitVec 6) :
    stepsUpTo K S h X (i.toNat + 1) = stepFn K S i (stepsUpTo K S h X i.toNat) X := by
  rw [stepsUpTo, BitVec.ofNat_toNat, BitVec.setWidth_eq]

theorem toNat_add_one {i : BitVec 6} (h : i.toNat < 63) : (i + 1).toNat = i.toNat + 1 := by
  rw [BitVec.toNat_add]
  exact Nat.mod_eq_of_lt (show i.toNat + 1 < 64 by omega)

/-- An engine step keeps `W` the value after `I` steps: within a block by one more step, and from the first
of two FINAL blocks to the second because the second starts from `H`. -/
theorem engineStep_midBlock (hb : s.STATE = .busy) (hm : s.MidBlock) : (engineStep s).MidBlock := by
  have hW := hm hb
  obtain ⟨hI, e⟩ | ⟨-, -, e⟩ | ⟨-, -, -, e⟩ | ⟨-, -, -, e⟩ := engineStep_cases s <;> rw [e]
  · intro _
    simp only [advanceStep_W, advanceStep_K, advanceStep_S, advanceStep_H, advanceStep_M,
      toNat_add_one hI, stepsUpTo_succ, ← hW]
  · exact fun h => by simp at h
  · exact fun _ => rfl
  · exact fun h => by simp at h

/-- Every effect of a step keeps `W` the value after `I` steps. -/
theorem StepEffect.keeps_midBlock (h : StepEffect turn s t) (hm : s.MidBlock) : t.MidBlock := by
  cases h with
  | engine _ enabled => exact engineStep_midBlock (stepEnabled_iff.mp enabled).1 hm
  | block => exact fun _ => rfl
  | final => exact fun _ => rfl
  | buffer _ _ _ _ hbusy => exact fun hb => absurd hb hbusy
  | reset => exact nofun
  | abort => exact nofun
  | error => exact nofun
  | init => exact nofun
  | _ => exact hm

/-- Settles O4: of the effects of a step only the engine's touches `W`, `H` or `M` during a block. -/
theorem everyStepKeepsMidBlock : Obligations.EveryStepKeepsMidBlock := by
  unfold Obligations.EveryStepKeepsMidBlock
  exact fun s t hm h => (step_effect h).keeps_midBlock hm

-- ## The counters

/-- The step count goes on by one within a block. -/
theorem stepCount_within (blocks : DWord) {i : BitVec 6} (h : i.toNat < 63) :
    64#32 * blocks.setWidth 32 + i.setWidth 32 + 1 = 64#32 * blocks.setWidth 32 + (i + 1).setWidth 32 := by
  have hi : (i + 1).setWidth 32 = i.setWidth 32 + 1#32 := by
    apply BitVec.eq_of_toNat_eq
    rw [BitVec.toNat_setWidth, toNat_add_one h, BitVec.toNat_add, BitVec.toNat_setWidth, Nat.mod_add_mod]
    rfl
  rw [hi, BitVec.add_assoc]
  rfl

/-- Step 63 makes up the 64 steps of its block. -/
theorem stepCount_last (blocks : DWord) :
    64#32 * blocks.setWidth 32 + (63#6).setWidth 32 + 1 =
      64#32 * (blocks + 1).setWidth 32 + (0#6).setWidth 32 := by
  rw [BitVec.setWidth_add _ _ (by decide), BitVec.mul_add, BitVec.add_assoc, BitVec.add_assoc]
  rfl

/-- An engine step takes both counts on together, and numbers its own snapshot. -/
theorem engineStep_countersAgree (htv : s.TV = true → s.TEN = true) (hc : s.CountersAgree) :
    (engineStep s).CountersAgree := by
  obtain ⟨hcount, -⟩ := hc
  have hsnap : (advanceStep s).TV = true → (advanceStep s).SNAP_IDX = (advanceStep s).STEPCNT := by
    intro h
    have hten : s.TEN = true := by
      rw [advanceStep_TV, Bool.or_eq_true] at h
      exact h.elim id htv
    simp [hten]
  obtain ⟨hI, e⟩ | ⟨hI, -, e⟩ | ⟨hI, -, -, e⟩ | ⟨hI, -, -, e⟩ := engineStep_cases s <;> rw [e]
  · refine ⟨?_, hsnap⟩
    simpa [hcount] using stepCount_within s.BLKCNT hI
  all_goals
    refine ⟨?_, hsnap⟩
    simpa [hcount, hI] using stepCount_last s.BLKCNT

/-- Every effect of a step keeps the counters in agreement: in READY `I` is 0 already. -/
theorem StepEffect.keeps_countersAgree (h : StepEffect turn s t) (hi : s.Inv) (hc : s.CountersAgree) :
    t.CountersAgree := by
  have ⟨⟨_, _, htv, _, hI, _⟩, _⟩ := hi
  have ready_I (hs : s.STATE = .ready) : s.I = 0 := hI (by simp [hs]) (by simp [hs])
  cases h with
  | engine => exact engineStep_countersAgree htv hc
  | block _ _ _ hready => exact ⟨ready_I hready ▸ hc.1, hc.2⟩
  | final _ _ _ _ hready => exact ⟨ready_I hready ▸ hc.1, hc.2⟩
  | tack => exact ⟨hc.1, nofun⟩
  | reset => exact ⟨rfl, nofun⟩
  | abort => exact ⟨rfl, nofun⟩
  | init => exact ⟨rfl, nofun⟩
  | _ => exact hc

/-- Settles O5: every effect of a step keeps the counters in agreement. -/
theorem everyStepKeepsCountersAgree : Obligations.EveryStepKeepsCountersAgree := by
  unfold Obligations.EveryStepKeepsCountersAgree
  exact fun s t hi hc h => (step_effect h).keeps_countersAgree hi hc

-- ## Reset

/-- Settles O2: the state after reset is one that the effect of reset gives. -/
theorem invariantsHoldAtReset : Obligations.InvariantsHoldAtReset := by
  unfold Obligations.InvariantsHoldAtReset
  exact ⟨resetEffect_inv State.reset, nofun, rfl, nofun⟩

end Sys2Proof.Machine
end

section
/-! The turns of the port: what a CMD write of a command runs, which byte-addressed accesses are port
transactions, which turns have a next state, and what is left to do in ERROR and without an enabled step
(20_memory.md R52, R61; 43_commands.md R180, R200; 60_exceptions.md R220, R231). -/

namespace Sys2Proof.Machine

open Sys2Proof

variable {s t : State} {rest : List Turn}

-- ## A CMD write of a command

/-- The port runs the command a word decodes to. In ERROR it does not decode, and it takes the ABORT word
only; but there `exec` ignores every other command too (43_commands.md R182). -/
theorem memWrite_decoded {v : Word} {i : Instr} (hv : decodeWord v = .command i) :
    memWrite 1 v s = exec i s := by
  by_cases he : s.STATE = .error
  · obtain rfl := eq_encode_of_decodeWord hv
    by_cases hi : i = .abort
    · subst hi
      exact memWrite_error_abort he
    · rw [exec_ignored he hi]
      refine memWrite_error he fun ⟨_, h⟩ => hi ?_
      have habort := decodeWord_encode i
      rw [h] at habort
      exact (Decoded.command.inj habort).symm
  · rw [memWrite_command he, executeCommand, hv]

/-- A table word that decodes is a command word (30_encoding.md R86). -/
theorem decodeWord_of_decodeTableWord {nbits w : Nat} {i : Instr} (h : decodeTableWord nbits w = some i) :
    decodeWord (BitVec.ofNat 32 (w % 2 ^ nbits)) = .command i := by
  unfold decodeTableWord at h
  split at h
  · split at h
    · rename_i j hj
      rw [hj, Option.some.inj h]
    · cases h
  · cases h

/-- Settles O16: in both clauses the step is a CMD write of a word that decodes. -/
theorem commandWriteRunsTheDecodedCommand : Obligations.CommandWriteRunsTheDecodedCommand := by
  unfold Obligations.CommandWriteRunsTheDecodedCommand
  refine ⟨fun s v i rest ha hv => ?_, fun s nbits w i h => ?_⟩
  · rw [step_cons ha]
    exact memWrite_decoded hv
  · exact memWrite_decoded (decodeWord_of_decodeTableWord h)

-- ## Byte-addressed accesses

/-- The accesses that are port transactions (20_memory.md R52). -/
theorem portIndexOf_eq_some_iff {addr size : Nat} {idx : BitVec 6} :
    portIndexOf addr size = some idx ↔ size = 4 ∧ addr = portBase + 4 * idx.toNat := by
  have hlt := idx.isLt
  unfold portIndexOf
  split
  · rename_i h
    rw [Option.some.injEq, ← BitVec.toNat_inj, BitVec.toNat_ofNat]
    omega
  · simp only [reduceCtorEq, false_iff]
    omega

theorem portIndexOf_eq_none {addr size : Nat}
    (h : size ≠ 4 ∨ ∀ idx : BitVec 6, addr ≠ portBase + 4 * idx.toNat) : portIndexOf addr size = none := by
  rw [Option.eq_none_iff_forall_ne_some]
  intro idx hidx
  obtain ⟨hsize, haddr⟩ := portIndexOf_eq_some_iff.mp hidx
  exact h.elim (· hsize) fun h => h idx haddr

section
variable {addr size : Nat} {v : Word} (s : State)

theorem runTurn_busRead {idx : BitVec 6} (h : portIndexOf addr size = some idx) :
    runTurn (.busRead addr size) s = runTurn (.read idx) s := by
  simp [runTurn, h]

theorem runTurn_busWrite {idx : BitVec 6} (h : portIndexOf addr size = some idx) :
    runTurn (.busWrite addr size v) s = runTurn (.write idx v) s := by
  simp [runTurn, h]

theorem runTurn_busRead_refused (h : portIndexOf addr size = none) :
    runTurn (.busRead addr size) s = .refused .notAPortTransaction := by
  simp [runTurn, h]

theorem runTurn_busWrite_refused (h : portIndexOf addr size = none) :
    runTurn (.busWrite addr size v) s = .refused .notAPortTransaction := by
  simp [runTurn, h]

end

/-- Settles O22: `portIndexOf` finds the index of every access that has one. -/
theorem byteAddressedAccessIsTheWordTransaction : Obligations.ByteAddressedAccessIsTheWordTransaction := by
  unfold Obligations.ByteAddressedAccessIsTheWordTransaction
  refine ⟨Nat.mul_mod_right _ _, fun s idx v rest => ?_, fun s addr size v rest h => ?_⟩
  · have hidx : portIndexOf (portBase + 4 * idx.toNat) 4 = some idx := portIndexOf_eq_some_iff.mpr ⟨rfl, rfl⟩
    exact ⟨runTurn_busRead _ hidx, runTurn_busWrite _ hidx⟩
  · have hnone := portIndexOf_eq_none h
    exact ⟨runTurn_busRead_refused _ hnone, runTurn_busWrite_refused _ hnone⟩

/-- Settles O23: errors are next states, and only an access that is no port transaction has none. -/
theorem everyPortTurnHasANextState : Obligations.EveryPortTurnHasANextState := by
  unfold Obligations.EveryPortTurnHasANextState
  intro s hread hwrite
  cases ha : s.agenda with
  | nil => exact ⟨_, step_nil ha⟩
  | cons turn rest =>
    rw [step_cons ha]
    cases turn with
    | engine => exact ⟨_, rfl⟩
    | read idx => exact ⟨_, rfl⟩
    | reset => exact ⟨_, rfl⟩
    | write idx v => exact memWrite_next idx v _
    | busRead addr size =>
      obtain ⟨idx, hidx⟩ := Option.ne_none_iff_exists'.mp (hread addr size (by rw [ha]; rfl))
      exact ⟨_, runTurn_busRead _ hidx⟩
    | busWrite addr size v =>
      obtain ⟨idx, hidx⟩ := Option.ne_none_iff_exists'.mp (hwrite addr size v (by rw [ha]; rfl))
      rw [runTurn_busWrite _ hidx]
      exact memWrite_next idx v _

-- ## No enabled step, and ERROR

/-- The engine's turn where it is not BUSY or a snapshot holds it (43_commands.md R200). -/
theorem engineTurn_rests (h : s.STATE ≠ .busy ∨ (s.TEN = true ∧ s.TV = true)) : engineTurn s = s := by
  refine engineTurn_disabled (Bool.eq_false_iff.mpr fun enabled => ?_)
  obtain ⟨hb, hheld⟩ := stepEnabled_iff.mp enabled
  exact h.elim (· hb) hheld

/-- A turn of the agenda without an enabled step is taken off, and nothing else (43_commands.md R205). -/
theorem step_engine_rests (ha : s.agenda = .engine :: rest)
    (h : s.STATE ≠ .busy ∨ (s.TEN = true ∧ s.TV = true)) : step s = .next { s with agenda := rest } :=
  (step_cons ha).trans (congrArg Host.Outcome.next (engineTurn_rests (s := { s with agenda := rest }) h))

/-- Settles O43: the engine's turn without an enabled step, in the agenda or after its end. -/
theorem engineWithoutAStepDoesNothing : Obligations.EngineWithoutAStepDoesNothing := by
  unfold Obligations.EngineWithoutAStepDoesNothing
  refine fun s => ⟨fun rest => step_engine_rests, fun ha h => ?_, fun ha => ?_⟩
  · rw [step_nil ha, engineTurn_rests h]
  · rw [step_nil ha, step_cons rfl, runTurn, ← ha]

/-- Settles O39: the guard of every command but ABORT ignores it in ERROR. -/
theorem decodedCommandsAreIgnoredInError : Obligations.DecodedCommandsAreIgnoredInError := by
  unfold Obligations.DecodedCommandsAreIgnoredInError
  exact fun i s => exec_ignored

/-- Settles O38: one case per kind of turn, the engine's being one without an enabled step. -/
theorem errorStateIgnoresAllButAbort : Obligations.ErrorStateIgnoresAllButAbort := by
  unfold Obligations.ErrorStateIgnoresAllButAbort
  intro s rest he
  have hb : s.STATE ≠ .busy := by simp [he]
  refine ⟨fun idx v ha hne => ?_, fun ha => ?_, fun idx => step_read,
    fun ha => step_engine_rests ha (.inl hb), fun ha => ?_⟩
  · rw [step_cons ha]
    exact memWrite_error he (not_and_or.mpr hne)
  · rw [step_cons ha]
    exact memWrite_error_abort he
  · rw [step_nil ha, engineTurn_rests (.inl hb)]

end Sys2Proof.Machine
end

section
/-! What the commands leave alone, and where doing a transaction twice, or an earlier message, does not
matter (20_memory.md R68; 30_encoding.md R83; 40_padder.md R107; 43_commands.md R181, R213). -/

namespace Sys2Proof.Machine

open Sys2Proof

variable {s t : State}

-- ## The frame of the commands

/-- What the guard of a command leaves: the state, its error or the effect (43_commands.md R182). -/
theorem command_answers {allowed : Bool} {code : ErrCode} {effect : State → State}
    (h : command allowed code effect s = .next t) :
    t = s ∨ (∃ code, t = raiseError code s) ∨ t = effect s := by
  obtain ⟨-, ht⟩ | ⟨-, -, ht⟩ | ⟨-, -, ht⟩ := command_cases h
  exacts [.inl ht, .inr (.inr ht), .inr (.inl ⟨code, ht⟩)]

/-- The effect of each command where it is performed (43_commands.md R183 to R189). -/
def performed (i : Instr) (s : State) : State :=
  match i with
  | .nop => s
  | .init ten => { clearMessageState s with TEN := ten, STATE := .ready }
  | .block =>
    { s with BITLEN := s.BITLEN + blockBits, FIN := false, PEND2 := false, DV := false
             W := s.H, I := 0, STATE := .busy }
  | .final n =>
    { s with BITLEN := s.BITLEN + tailBits n, M := paddedTail s.M n (s.BITLEN + tailBits n)
             FIN := true, PEND2 := !fitsOneBlock n, DV := false, W := s.H, I := 0, STATE := .busy }
  | .encode => encodeAction s
  | .tack => { s with TV := false }
  | .abort => resetEffect s

/-- Everything a command can answer. -/
theorem exec_cases {i : Instr} (h : exec i s = .next t) :
    t = s ∨ (∃ code, t = raiseError code s) ∨ t = performed i s := by
  cases i with
  | nop => unfold exec execNop at h; exact command_answers h
  | init ten => unfold exec execInit at h; exact command_answers h
  | block => unfold exec execBlock at h; exact command_answers h
  | final n => unfold exec execFinal at h; exact command_answers h
  | encode => unfold exec execEncode at h; exact command_answers h
  | tack => unfold exec execTack at h; exact command_answers h
  | abort => exact .inr (.inr (Host.Outcome.next.inj h).symm)

/-- No command writes a ROM or the model's own fields. -/
theorem exec_fixed {i : Instr} (h : exec i s = .next t) :
    t.K = s.K ∧ t.S = s.S ∧ t.agenda = s.agenda ∧ t.replies = s.replies := by
  obtain rfl | ⟨code, rfl⟩ | rfl := exec_cases h
  · exact ⟨rfl, rfl, rfl, rfl⟩
  · exact ⟨rfl, rfl, rfl, rfl⟩
  · cases i <;> exact ⟨rfl, rfl, rfl, rfl⟩

/-- A location other than STATUS reads the same in two states that agree in the element it shows
(20_memory.md R60). -/
theorem readPort_congr {idx : BitVec 6} (hSTATUS : idx.toNat ≠ 2)
    (hH : 4 ≤ idx.toNat ∧ idx.toNat ≤ 7 → t.H = s.H := by exact fun _ => rfl)
    (hW : 8 ≤ idx.toNat ∧ idx.toNat ≤ 11 → t.W = s.W := by exact fun _ => rfl)
    (hSNAP : 12 ≤ idx.toNat ∧ idx.toNat ≤ 15 → t.SNAP = s.SNAP := by exact fun _ => rfl)
    (hSNAP_IDX : idx.toNat = 16 → t.SNAP_IDX = s.SNAP_IDX := by exact fun _ => rfl)
    (hSTEPCNT : idx.toNat = 17 → t.STEPCNT = s.STEPCNT := by exact fun _ => rfl)
    (hBITLEN : idx.toNat = 18 ∨ idx.toNat = 19 → t.BITLEN = s.BITLEN := by exact fun _ => rfl)
    (hBLKCNT : idx.toNat = 20 ∨ idx.toNat = 21 → t.BLKCNT = s.BLKCNT := by exact fun _ => rfl)
    (hDIG : 24 ≤ idx.toNat ∧ idx.toNat ≤ 27 → t.DIG = s.DIG := by exact fun _ => rfl)
    (hHEX : 32 ≤ idx.toNat ∧ idx.toNat ≤ 39 → t.HEX = s.HEX := by exact fun _ => rfl)
    (hM : 48 ≤ idx.toNat → t.M = s.M := by exact fun _ => rfl) :
    readPort t idx = readPort s idx := by
  unfold readPort
  dsimp only
  refine ite_congr rfl (fun _ => rfl) fun _ => ite_congr rfl (absurd · hSTATUS) fun _ => ?_
  refine ite_congr rfl (fun h => by rw [hH h]) fun _ => ite_congr rfl (fun h => by rw [hW h]) fun _ => ?_
  refine ite_congr rfl (fun h => by rw [hSNAP h]) fun _ => ite_congr rfl hSNAP_IDX fun _ => ?_
  refine ite_congr rfl hSTEPCNT fun _ => ?_
  refine ite_congr rfl (fun h => by rw [hBITLEN (.inl h)]) fun _ => ?_
  refine ite_congr rfl (fun h => by rw [hBITLEN (.inr h)]) fun _ => ?_
  refine ite_congr rfl (fun h => by rw [hBLKCNT (.inl h)]) fun _ => ?_
  refine ite_congr rfl (fun h => by rw [hBLKCNT (.inr h)]) fun _ => ?_
  refine ite_congr rfl (fun h => by rw [hDIG h]) fun _ => ite_congr rfl (fun h => by rw [hHEX h]) fun _ => ?_
  exact ite_congr rfl (fun h => by rw [hM h]) fun _ => rfl

theorem readPort_raiseError {idx : BitVec 6} (code : ErrCode) (hSTATUS : idx.toNat ≠ 2) :
    readPort (raiseError code s) idx = readPort s idx :=
  readPort_congr hSTATUS

/-- ID, CMD and the reserved locations show no element. -/
theorem readPort_fixed {idx : BitVec 6}
    (h : idx.toNat = 0 ∨ idx.toNat = 1 ∨ idx.toNat = 3 ∨ idx.toNat = 22 ∨ idx.toNat = 23 ∨
      (28 ≤ idx.toNat ∧ idx.toNat ≤ 31) ∨ (40 ≤ idx.toNat ∧ idx.toNat ≤ 47)) :
    readPort t idx = readPort s idx := by
  obtain h | h := h
  · rw [readPort_ID h, readPort_ID h]
  · rw [readPort_unmapped h, readPort_unmapped h]

/-- `pad_tail(N)` keeps the bytes of the tail (40_padder.md R104). -/
theorem exec_final_keeps_tail {n : BitVec 6} {j : Nat} (h : exec (.final n) s = .next t) (hj : j < n.toNat) :
    blockByte t.M j = blockByte s.M j := by
  obtain rfl | ⟨code, rfl⟩ | rfl := exec_cases h
  · rfl
  · rfl
  · have hn := n.isLt
    exact (blockByte_paddedTail s.M n _ (by omega)).trans (if_pos hj)

/-- Settles O33: a location reads the same after an ignored command and after an error; for the effect,
command by command, the state elements it does not write. -/
theorem commandsLeaveOtherLocationsAlone : Obligations.CommandsLeaveOtherLocationsAlone := by
  unfold Obligations.CommandsLeaveOtherLocationsAlone
  intro i s t h
  refine ⟨exec_fixed h, fun idx h2 hidx => ?_, ?_⟩
  · obtain rfl | ⟨code, rfl⟩ | rfl := exec_cases h
    · rfl
    · exact readPort_raiseError code h2
    · cases i with
      | nop => rfl
      | tack => exact readPort_congr h2
      | encode =>
        obtain ⟨hdig, hhex⟩ := hidx
        exact readPort_congr h2 (hDIG := (absurd · hdig)) (hHEX := (absurd · hhex))
      | block =>
        obtain ⟨hw, h18, h19⟩ := hidx
        exact readPort_congr h2 (hW := (absurd · hw)) (hBITLEN := fun h => absurd h (by omega))
      | final n =>
        obtain ⟨hw, h18, h19, hm⟩ := hidx
        exact readPort_congr h2 (hW := (absurd · hw)) (hBITLEN := fun h => absurd h (by omega))
          (hM := fun h => absurd h (by omega))
      | init ten => exact readPort_fixed hidx
      | abort => exact readPort_fixed hidx
  · rintro n rfl j
    exact exec_final_keeps_tail h

-- ## Doing it twice

/-- Writing the same word twice is writing it once (43_commands.md R190). -/
theorem setWord_setWord (M : Vector Word 16) (k : Nat) (v : Word) :
    setWord (setWord M k v) k v = setWord M k v := by
  refine words_ext fun j hj => ?_
  rw [wordAt_setWord _ _ hj, wordAt_setWord _ _ hj]
  split <;> rfl

/-- Settles O35: each effect, where it is performed, keeps its own condition and is idempotent. -/
theorem idempotentTransactions : Obligations.IdempotentTransactions := by
  unfold Obligations.IdempotentTransactions
  refine ⟨fun s t _ => exec_nop t, fun s t hs h => ?_, fun s t h => ?_, fun s t idx v hb he hidx h => ?_⟩
  · rw [exec_encode hs] at h
    obtain rfl : encodeAction s = t := by simpa using h
    exact exec_encode (s := encodeAction s) hs
  · obtain rfl : resetEffect s = t := by simpa [exec, execAbort] using h
    rfl
  · rw [memWrite_buffer he hidx, writeM_performed hb] at h
    obtain rfl : { s with M := setWord s.M (idx.toNat - 48) v } = t := by simpa using h
    let t : State := { s with M := setWord s.M (idx.toNat - 48) v }
    rw [memWrite_buffer (s := t) he hidx, writeM_performed (s := t) hb, setWord_setWord]

-- ## What does not matter

/-- INIT makes the fresh message of R181, which takes over only the ROMs and the model's own fields. -/
theorem exec_init_eq_freshFrom (ten : Bool) (hb : s.STATE ≠ .busy) (he : s.STATE ≠ .error) :
    exec (.init ten) s = .next (s.freshFrom ten .ready) :=
  exec_init ten he hb

/-- Settles O34: both states become the fresh message of what they share. -/
theorem initForgetsThePast : Obligations.InitForgetsThePast := by
  unfold Obligations.InitForgetsThePast
  intro ten s₁ s₂ hb₁ he₁ hb₂ he₂ hK hS hagenda hreplies
  rw [exec_init_eq_freshFrom ten hb₁ he₁, exec_init_eq_freshFrom ten hb₂ he₂, State.freshFrom,
    State.freshFrom, hK, hS, hagenda, hreplies]

/-- The padding is decided by the bytes of the tail (40_padder.md R107). -/
theorem paddedTail_congr {M N : Vector Word 16} {n : BitVec 6} (bits : DWord)
    (h : ∀ j, j < n.toNat → blockByte M j = blockByte N j) : paddedTail M n bits = paddedTail N n bits := by
  refine block_ext fun j hj => ?_
  rw [blockByte_paddedTail _ _ _ hj, blockByte_paddedTail _ _ _ hj]
  split
  · rename_i hjn
    exact h j hjn
  · rfl

/-- Settles O36: FINAL uses the buffer for nothing but the padded tail. -/
theorem bytesAboveTheTailDoNotMatter : Obligations.BytesAboveTheTailDoNotMatter := by
  unfold Obligations.BytesAboveTheTailDoNotMatter
  intro s M' n hs h
  rw [exec_final n hs, exec_final (s := { s with M := M' }) n hs, paddedTail_congr _ h]

end Sys2Proof.Machine
end

section
/-! What an operation in progress is safe from, and the events that change the counters (10_state.md R38,
R39; 20_memory.md R66; 43_commands.md R208; 70_reset_and_hazards.md R258). -/

namespace Sys2Proof.Machine

open Sys2Proof

variable {s t : State}

-- ## The block buffer

/-- The engine's step leaves `M` alone, or it loads the second padding block (40_padder.md R106). -/
theorem engineStep_M_cases (s : State) :
    (engineStep s).M = s.M ∨
    (s.I = 63 ∧ s.FIN = true ∧ s.PEND2 = true ∧ (engineStep s).M = secondPadBlock s.BITLEN ∧
      (engineStep s).STATE = s.STATE) := by
  obtain ⟨-, e⟩ | ⟨-, -, e⟩ | ⟨hI, hF, hP, e⟩ | ⟨-, -, -, e⟩ := engineStep_cases s
  · exact .inl (by simp [e])
  · exact .inl (by simp [e])
  · exact .inr ⟨hI, hF, hP, by simp [e], by simp [e]⟩
  · exact .inl (by simp [e])

/-- Settles O53: of the effects a step can have in BUSY, the engine's step and the reset state's touch `M`. -/
theorem blockBufferIsStableWhileBusy : Obligations.BlockBufferIsStableWhileBusy := by
  unfold Obligations.BlockBufferIsStableWhileBusy
  intro s t hb h hM
  cases step_effect h with
  | engine =>
    obtain hkept | ⟨hI, hF, hP, hload, hstate⟩ := engineStep_M_cases { s with agenda := s.agenda.tail }
    · exact absurd hkept hM
    · exact .inl ⟨hI, hF, hP, hload, hstate.trans hb⟩
  | reset => exact .inr rfl
  | abort => exact .inr rfl
  | buffer _ _ _ _ hbusy => exact absurd hb hbusy
  | init _ _ _ _ hbusy => exact absurd hb hbusy
  | final _ _ _ _ hready => simp [hb] at hready
  | _ => exact absurd rfl hM

-- ## The host during an operation

/-- Settles O54: of the effects a host turn can have in BUSY, reads and ignored writes change no element of
the engine, TACK clears `TV`, and what is left is ABORT and the errors. -/
theorem hostCannotDisturbAnOperation : Obligations.HostCannotDisturbAnOperation := by
  unfold Obligations.HostCannotDisturbAnOperation
  rintro s t hb h ⟨turn, hturn, hengine, hreset⟩
  have heffect := step_effect h
  rw [hturn] at heffect
  cases heffect with
  | engine hnext => simp [hengine] at hnext
  | rest hnext => simp [hengine] at hnext
  | reset hnext => exact absurd (Option.some.inj hnext) hreset
  | error => exact .inl rfl
  | abort => exact .inr (.inl rfl)
  | reply => exact .inr (.inr (.inl rfl))
  | noChange => exact .inr (.inr (.inl rfl))
  | tack => exact .inr (.inr (.inr rfl))
  | buffer _ _ _ _ hbusy => exact absurd hb hbusy
  | init _ _ _ _ hbusy => exact absurd hb hbusy
  | block _ _ _ hready => simp [hb] at hready
  | final _ _ _ _ hready => simp [hb] at hready
  | encode _ _ _ hstate => simp [hb] at hstate

-- ## The counters

@[simp] theorem engineStep_BITLEN (s : State) : (engineStep s).BITLEN = s.BITLEN := by
  obtain ⟨-, e⟩ | ⟨-, -, e⟩ | ⟨-, -, -, e⟩ | ⟨-, -, -, e⟩ := engineStep_cases s <;> simp [e]

/-- The engine's step leaves `BLKCNT` alone, or it is step 63 and counts its block (41_block_processor.md
R134). -/
theorem engineStep_BLKCNT_cases (s : State) :
    (engineStep s).BLKCNT = s.BLKCNT ∨
    (s.I = 63 ∧ (engineStep s).I = 0 ∧ (engineStep s).BLKCNT = s.BLKCNT + 1) := by
  obtain ⟨-, e⟩ | ⟨hI, -, e⟩ | ⟨hI, -, -, e⟩ | ⟨hI, -, -, e⟩ := engineStep_cases s
  · exact .inl (by simp [e])
  all_goals exact .inr ⟨hI, by simp [e], by simp [e]⟩

/-- A step that changes `BITLEN` clears the message or counts the bits of a BLOCK or FINAL. -/
theorem step_BITLEN_cases (h : step s = .next t) (hne : t.BITLEN ≠ s.BITLEN) :
    s.ClearedTo t ∨
    ∃ turn v, s.agenda.head? = some turn ∧ turn.hostWrite = some (1, v) ∧ s.STATE = .ready ∧ t.STATE = .busy ∧
      ((decodeWord v = .command .block ∧ t.BITLEN = s.BITLEN + blockBits) ∨
        ∃ n, decodeWord v = .command (.final n) ∧ t.BITLEN = s.BITLEN + tailBits n) := by
  cases step_effect h with
  | reset hturn => exact .inl (clearedTo_reset hturn)
  | abort v hturn hv => exact .inl (clearedTo_abort hturn hv)
  | init v ten hturn hv => exact .inl (clearedTo_init hturn hv)
  | block v hturn hv hready =>
    obtain ⟨turn, hhead, hwrite⟩ := nextWrite_cases hturn
    exact .inr ⟨turn, v, hhead, hwrite, hready, rfl, .inl ⟨hv, rfl⟩⟩
  | final v n hturn hv hready =>
    obtain ⟨turn, hhead, hwrite⟩ := nextWrite_cases hturn
    exact .inr ⟨turn, v, hhead, hwrite, hready, rfl, .inr ⟨n, hv, rfl⟩⟩
  | engine => exact absurd (engineStep_BITLEN _) hne
  | _ => exact absurd rfl hne

/-- A step that changes `BLKCNT` clears the message or completes a block. -/
theorem step_BLKCNT_cases (h : step s = .next t) (hne : t.BLKCNT ≠ s.BLKCNT) :
    s.ClearedTo t ∨
    (s.STATE = .busy ∧ s.I = 63 ∧ (s.agenda = [] ∨ s.agenda.head? = some .engine) ∧ t.I = 0 ∧
      t.BLKCNT = s.BLKCNT + 1) := by
  cases step_effect h with
  | reset hturn => exact .inl (clearedTo_reset hturn)
  | abort v hturn hv => exact .inl (clearedTo_abort hturn hv)
  | init v ten hturn hv => exact .inl (clearedTo_init hturn hv)
  | engine hturn enabled =>
    obtain hkept | ⟨hI, hI', hcount⟩ := engineStep_BLKCNT_cases { s with agenda := s.agenda.tail }
    · exact absurd hkept hne
    · exact .inr ⟨(stepEnabled_iff.mp enabled).1, hI, by simpa using hturn, hI', hcount⟩
  | _ => exact absurd rfl hne

/-- Settles O55: one inversion of the step for each counter. -/
theorem countersChangeOnlyAtTheirEvents : Obligations.CountersChangeOnlyAtTheirEvents := by
  unfold Obligations.CountersChangeOnlyAtTheirEvents
  simp only [← tailBits_eq_ofNat]
  exact fun s t h => ⟨step_BITLEN_cases h, step_BLKCNT_cases h⟩

end Sys2Proof.Machine
end

section
/-! The digest string as text: the hex digits of the digest's bytes (42_digest_encoder.md R160 to R162). -/

namespace Sys2Proof

/-- A byte of a word as a number. -/
theorem toNat_byteOf (w : Word) (j : Nat) : (byteOf w j).toNat = w.toNat / 2 ^ (8 * j) % 2 ^ 8 := by
  rw [byteOf, BitVec.extractLsb'_toNat, Nat.shiftRight_eq_div_pow]

namespace Machine

/-- The ASCII codes of the hex digits, in terms of numbers (42_digest_encoder.md R162). -/
theorem toNat_hexDigit :
    ∀ v : BitVec 4, (hexDigit v).toNat = if v.toNat ≤ 9 then 0x30 + v.toNat else 0x61 + (v.toNat - 10) := by
  decide

theorem getD_hexString (h : Quad) {c : Nat} (hc : c < 32) : (hexString h).getD c 0 = hexChar h c := by
  simp [hexString, hc]

/-- The high digit of a byte stands before its low digit (42_digest_encoder.md R161). -/
theorem hexChar_even (h : Quad) (m : Nat) :
    hexChar h (2 * m) = hexDigit ((digestByte h m).extractLsb' 4 4) := by
  simp [hexChar]

theorem hexChar_odd (h : Quad) (m : Nat) :
    hexChar h (2 * m + 1) = hexDigit ((digestByte h m).extractLsb' 0 4) := by
  simp [hexChar, Nat.add_mod, show (2 * m + 1) / 2 = m by omega]

theorem toNat_high_digit (b : Byte) : (b.extractLsb' 4 4).toNat = b.toNat / 16 := by
  have := b.isLt
  rw [BitVec.extractLsb'_toNat, Nat.shiftRight_eq_div_pow]
  omega

theorem toNat_low_digit (b : Byte) : (b.extractLsb' 0 4).toNat = b.toNat % 16 := by
  rw [BitVec.extractLsb'_toNat, Nat.shiftRight_zero]

/-- Byte `4k + j` of the digest is byte `j` of word `k` (42_digest_encoder.md R160). -/
theorem toNat_digestByte (h : Quad) (k : Nat) {j : Nat} (hj : j < 4) :
    (digestByte h (4 * k + j)).toNat = (h.get k).toNat / 2 ^ (8 * j) % 2 ^ 8 := by
  rw [digestByte, toNat_byteOf, show (4 * k + j) / 4 = k by omega, show (4 * k + j) % 4 = j by omega]

/-- Settles O29: the two characters of a byte are its two digits, and the byte is one of its word's. -/
theorem hexStringIsTheDigestInHex : Obligations.HexStringIsTheDigestInHex := by
  unfold Obligations.HexStringIsTheDigestInHex
  intro h ascii
  refine ⟨by simp [hexString], fun c => getD_hexString h, fun k j hk hj => ?_⟩
  intro d
  have hd : (digestByte h (4 * k + j)).toNat = d := toNat_digestByte h k hj
  constructor
  · rw [getD_hexString h (by omega), hexChar_even, toNat_hexDigit, toNat_high_digit, hd]
  · rw [getD_hexString h (by omega), hexChar_odd, toNat_hexDigit, toNat_low_digit, hd]

end Machine

end Sys2Proof
end

section
/-! Changes of the state that the engine's step commutes with: tracing forgotten, and the model's own two
fields replaced (41_block_processor.md R138; 43_commands.md R213). -/

namespace Sys2Proof.Machine

open Sys2Proof

variable {s t : State}

/-- A change that spares the fields the engine's step branches on, and commutes with its parts, commutes
with the step. -/
theorem engineStep_comm {f : State → State} (hI : (f s).I = s.I) (hFIN : (f s).FIN = s.FIN)
    (hPEND2 : (f s).PEND2 = s.PEND2) (hadvance : advanceStep (f s) = f (advanceStep s))
    (hwithin : ∀ u : State, { f u with I := s.I + 1 } = f { u with I := s.I + 1 })
    (hblock : ∀ u, completeBlock (finishBlock (f u)) = f (completeBlock (finishBlock u)))
    (hpad2 : ∀ u, nextPadBlock (finishBlock (f u)) = f (nextPadBlock (finishBlock u)))
    (hfinal : ∀ u, completeFinal (finishBlock (f u)) = f (completeFinal (finishBlock u))) :
    engineStep (f s) = f (engineStep s) := by
  obtain ⟨hlt, e⟩ | ⟨h63, hF, e⟩ | ⟨h63, hF, hP, e⟩ | ⟨h63, hF, hP, e⟩ := engineStep_cases s
  · rw [e, engineStep_within (by rw [hI]; exact hlt), hadvance, hI, hwithin]
  · rw [e, engineStep_block (by rw [hI, h63]; rfl) (hFIN.trans hF), hadvance, hblock]
  · rw [e, engineStep_pad2 (by rw [hI, h63]; rfl) (hFIN.trans hF) (hPEND2.trans hP), hadvance, hpad2]
  · rw [e, engineStep_final (by rw [hI, h63]; rfl) (hFIN.trans hF) (hPEND2.trans hP), hadvance, hfinal]

-- ## Tracing

theorem advanceStep_forgetTrace (s : State) : advanceStep s.forgetTrace = (advanceStep s).forgetTrace := by
  rw [advanceStep_eq, advanceStep_eq]
  rfl

/-- The engine's step reads no trace element but the trace enable, and that for the snapshot only. -/
theorem engineStep_forgetTrace (s : State) : engineStep s.forgetTrace = (engineStep s).forgetTrace :=
  engineStep_comm rfl rfl rfl (advanceStep_forgetTrace s) (fun _ => rfl) (fun _ => rfl) (fun _ => rfl)
    fun _ => rfl

/-- Settles O44: the step commutes with forgetting the trace, and without a trace no snapshot holds it. -/
theorem tracingChangesNoResult : Obligations.TracingChangesNoResult := by
  unfold Obligations.TracingChangesNoResult
  intro s enabled
  obtain ⟨hb, -⟩ := stepEnabled_iff.mp enabled
  exact ⟨(engineStep_forgetTrace s).symm, stepEnabled_iff.mpr ⟨hb, nofun⟩⟩

-- ## The model's own fields

/-- The turns to come and the replies replaced. -/
def State.withHost (s : State) (turns : List Turn) (replies : List Reply) : State :=
  { s with agenda := turns, replies := replies }

/-- The next state, if there is one, changed by `f`. -/
def mapNext (f : State → State) : Result → Result
  | .next t => .next (f t)
  | .fault e => .fault e
  | .refused e => .refused e

theorem eq_next_of_mapNext_eq {f : State → State} {r : Result} (h : mapNext f r = .next t) :
    ∃ u, r = .next u ∧ f u = t := by
  cases r with
  | next u => exact ⟨u, rfl, Host.Outcome.next.inj h⟩
  | fault e => cases h
  | refused e => cases h

section
variable (s : State) (turns : List Turn) (replies : List Reply)

theorem advanceStep_withHost :
    advanceStep (s.withHost turns replies) = (advanceStep s).withHost turns replies := by
  rw [advanceStep_eq, advanceStep_eq]
  rfl

theorem engineStep_withHost :
    engineStep (s.withHost turns replies) = (engineStep s).withHost turns replies :=
  engineStep_comm (f := (State.withHost · turns replies)) rfl rfl rfl (advanceStep_withHost s turns replies)
    (fun _ => rfl) (fun _ => rfl) (fun _ => rfl) fun _ => rfl

theorem engineTurn_withHost :
    engineTurn (s.withHost turns replies) = (engineTurn s).withHost turns replies := by
  cases h : stepEnabled s
  · rw [engineTurn_disabled h]
    exact engineTurn_disabled h
  · rw [engineTurn_enabled h, ← engineStep_withHost]
    exact engineTurn_enabled h

theorem command_withHost {allowed : Bool} {code : ErrCode} {effect : State → State}
    (heffect : effect (s.withHost turns replies) = (effect s).withHost turns replies) :
    command allowed code effect (s.withHost turns replies) =
      mapNext (State.withHost · turns replies) (command allowed code effect s) := by
  by_cases he : s.STATE = .error
  · rw [command_ignored he]
    exact command_ignored he
  · cases ha : allowed
    · rw [command_rejected he rfl]
      exact command_rejected he rfl
    · rw [command_performed he rfl]
      rw [mapNext, ← heffect]
      exact command_performed he rfl

theorem exec_withHost (i : Instr) :
    exec i (s.withHost turns replies) = mapNext (State.withHost · turns replies) (exec i s) := by
  cases i with
  | nop => unfold exec execNop; exact command_withHost s turns replies rfl
  | init ten => unfold exec execInit; exact command_withHost s turns replies rfl
  | block => unfold exec execBlock; exact command_withHost s turns replies rfl
  | final n => unfold exec execFinal; exact command_withHost s turns replies rfl
  | encode => unfold exec execEncode; exact command_withHost s turns replies rfl
  | tack => unfold exec execTack; exact command_withHost s turns replies rfl
  | abort => rfl

theorem executeCommand_withHost (v : Word) :
    executeCommand v (s.withHost turns replies) =
      mapNext (State.withHost · turns replies) (executeCommand v s) := by
  unfold executeCommand
  cases decodeWord v with
  | command i => exact exec_withHost s turns replies i
  | reject e => rfl

theorem writeM_withHost (k : Nat) (v : Word) :
    writeM k v (s.withHost turns replies) = (writeM k v s).withHost turns replies := by
  by_cases hb : s.STATE = .busy
  · rw [writeM_busy hb]
    exact writeM_busy hb
  · rw [writeM_performed hb]
    exact writeM_performed hb

theorem memWrite_withHost (idx : BitVec 6) (v : Word) :
    memWrite idx v (s.withHost turns replies) =
      mapNext (State.withHost · turns replies) (memWrite idx v s) := by
  by_cases he : s.STATE = .error
  · by_cases hw : idx = 1 ∧ v = 0x0000000F#32
    · obtain ⟨rfl, rfl⟩ := hw
      rw [memWrite_error_abort he]
      exact memWrite_error_abort he
    · rw [memWrite_error he hw]
      exact memWrite_error he hw
  · by_cases h1 : idx = 1
    · subst h1
      rw [memWrite_command he, ← executeCommand_withHost]
      exact memWrite_command he
    · by_cases h48 : 48 ≤ idx.toNat
      · rw [memWrite_buffer he h48]
        rw [mapNext, ← writeM_withHost]
        exact memWrite_buffer he h48
      · rw [memWrite_badWrite he h1 (by omega)]
        exact memWrite_badWrite he h1 (by omega)

/-- A turn that is no read does the same whatever the model's own fields hold. -/
theorem runTurn_withHost {turn : Turn} (hread : turn.isRead = false) :
    runTurn turn (s.withHost turns replies) = mapNext (State.withHost · turns replies) (runTurn turn s) := by
  cases turn with
  | engine => exact congrArg _ (engineTurn_withHost s turns replies)
  | read idx => cases hread
  | write idx v => exact memWrite_withHost s turns replies idx v
  | busRead addr size =>
    have hnone : portIndexOf addr size = none := by simpa [Turn.isRead] using hread
    rw [runTurn_busRead_refused _ hnone, runTurn_busRead_refused _ hnone]
    rfl
  | busWrite addr size v =>
    cases hidx : portIndexOf addr size with
    | none =>
      rw [runTurn_busWrite_refused _ hidx, runTurn_busWrite_refused _ hidx]
      rfl
    | some idx =>
      rw [runTurn_busWrite _ hidx, runTurn_busWrite _ hidx]
      exact memWrite_withHost s turns replies idx v
  | reset => rfl

/-- A read changes the replies alone (20_memory.md R55). -/
theorem runTurn_read {turn : Turn} (hread : turn.isRead = true) :
    ∃ reply, runTurn turn (s.withHost turns replies) = .next (s.withHost turns (replies ++ [reply])) := by
  cases turn with
  | read idx => exact ⟨_, rfl⟩
  | busRead addr size =>
    obtain ⟨idx, hidx⟩ := Option.isSome_iff_exists.mp hread
    exact ⟨_, runTurn_busRead _ hidx⟩
  | _ => cases hread

end

variable {turn : Turn} {turns : List Turn} {replies : List Reply} {n : Nat}

/-- With a turn to come, the steps of a run are that turn and the steps that follow. -/
theorem steps_cons {u : State} (h : runTurn turn (s.withHost turns replies) = .next u) :
    steps (n + 1) (s.withHost (turn :: turns) replies) = steps n u := by
  have hstep : step (s.withHost (turn :: turns) replies) = .next u := h
  rw [steps, hstep]

/-- A run that does not stop has a next state after its first turn. -/
theorem steps_cons_next (h : steps (n + 1) (s.withHost (turn :: turns) replies) = .next t) :
    ∃ u, runTurn turn (s.withHost turns replies) = .next u ∧ steps n u = .next t := by
  have hstep : step (s.withHost (turn :: turns) replies) = runTurn turn (s.withHost turns replies) := rfl
  rw [steps, hstep] at h
  cases hrun : runTurn turn (s.withHost turns replies) with
  | next u => exact ⟨u, rfl, by simpa [hrun] using h⟩
  | fault e => simp [hrun] at h
  | refused e => simp [hrun] at h

-- ## Reads taken out of a run

/-- A run of all its turns, and the run of the turns that are no reads. -/
theorem steps_without_reads (turns : List Turn) {replies' : List Reply}
    (h : steps turns.length (s.withHost turns replies) = .next t) :
    ∃ t', steps (turns.filter fun turn => !turn.isRead).length
        (s.withHost (turns.filter fun turn => !turn.isRead) replies') = .next t' ∧
      t'.architectural = t.architectural := by
  induction turns generalizing s replies with
  | nil =>
    obtain rfl : s.withHost [] replies = t := Host.Outcome.next.inj h
    exact ⟨_, rfl, rfl⟩
  | cons turn rest ih =>
    cases hread : turn.isRead with
    | true =>
      obtain ⟨reply, hrun⟩ := runTurn_read s rest replies hread
      rw [List.length_cons, steps_cons hrun] at h
      rw [List.filter_cons_of_neg (by simp [hread])]
      exact ih h
    | false =>
      obtain ⟨u, hrun, h⟩ := steps_cons_next h
      rw [runTurn_withHost s rest replies hread] at hrun
      obtain ⟨u, hu, rfl⟩ := eq_next_of_mapNext_eq hrun
      obtain ⟨t', hquiet, harch⟩ := ih h
      refine ⟨t', ?_, harch⟩
      rw [List.filter_cons_of_pos (by simp [hread]), List.length_cons, steps_cons]
      · exact hquiet
      · rw [runTurn_withHost _ _ _ hread, hu]
        rfl

/-- Settles O51: the run of the state with its own agenda. -/
theorem readsDoNotChangeARun : Obligations.ReadsDoNotChangeARun := by
  unfold Obligations.ReadsDoNotChangeARun
  exact fun s t h => steps_without_reads s.agenda h

end Sys2Proof.Machine
end

section
/-! An operation in progress ends: each engine turn takes one of the steps it still needs, and reads and
NOPs take none (43_commands.md R206 to R208). -/

namespace Sys2Proof.Machine

open Sys2Proof

variable {s : State}

@[simp] theorem engineStep_TEN (s : State) : (engineStep s).TEN = s.TEN := by
  obtain ⟨-, e⟩ | ⟨-, -, e⟩ | ⟨-, -, -, e⟩ | ⟨-, -, -, e⟩ := engineStep_cases s <;> simp [e]

@[simp] theorem engineStep_STEPCNT (s : State) : (engineStep s).STEPCNT = s.STEPCNT + 1 := by
  obtain ⟨-, e⟩ | ⟨-, -, e⟩ | ⟨-, -, -, e⟩ | ⟨-, -, -, e⟩ := engineStep_cases s <;> simp [e]

/-- An enabled step of the engine as a turn (43_commands.md R200). -/
theorem runTurn_engine (turns : List Turn) (replies : List Reply) (enabled : stepEnabled s = true) :
    runTurn .engine (s.withHost turns replies) = .next ((engineStep s).withHost turns replies) := by
  rw [runTurn, engineTurn_withHost, engineTurn_enabled enabled]

theorem runTurn_engine_rests (turns : List Turn) (replies : List Reply) (hb : s.STATE ≠ .busy) :
    runTurn .engine (s.withHost turns replies) = .next (s.withHost turns replies) := by
  rw [runTurn, engineTurn_withHost, engineTurn_rests (.inl hb)]

/-- The sequencer state an operation in progress ends in; the state itself where there is none. -/
def endState (s : State) : SeqState :=
  if s.STATE = .busy then if s.FIN then .done else .ready else s.STATE

theorem stepsLeft_busy (hb : s.STATE = .busy) :
    stepsLeft s = 64 - s.I.toNat + if s.FIN && s.PEND2 then 64 else 0 := by
  rw [stepsLeft, if_pos hb]

theorem stepsLeft_of_ne_busy (hb : s.STATE ≠ .busy) : stepsLeft s = 0 := by
  rw [stepsLeft, if_neg hb]

theorem stepsLeft_pos (hb : s.STATE = .busy) : 0 < stepsLeft s := by
  have := s.I.isLt
  rw [stepsLeft_busy hb]
  omega

/-- One engine step is one step fewer, over the change from the first FINAL block to the second too. -/
theorem stepsLeft_engineStep (hb : s.STATE = .busy) : stepsLeft s = stepsLeft (engineStep s) + 1 := by
  rw [stepsLeft_busy hb]
  obtain ⟨hI, e⟩ | ⟨hI, hF, e⟩ | ⟨hI, hF, hP, e⟩ | ⟨hI, hF, hP, e⟩ := engineStep_cases s
  · have hnext : (engineStep s).STATE = .busy := by simp [e, hb]
    rw [stepsLeft_busy hnext, e]
    simp only [advanceStep_FIN, advanceStep_PEND2, toNat_add_one hI]
    omega
  · rw [stepsLeft_of_ne_busy (by simp [e])]
    simp [hI, hF]
  · have hnext : (engineStep s).STATE = .busy := by simp [e, hb]
    rw [stepsLeft_busy hnext, e]
    simp [hI, hF, hP]
  · rw [stepsLeft_of_ne_busy (by simp [e])]
    simp [hI, hP]

/-- The end of the operation does not change on the way. -/
theorem endState_engineStep (hb : s.STATE = .busy) : endState (engineStep s) = endState s := by
  rw [endState.eq_1 s, if_pos hb]
  obtain ⟨-, e⟩ | ⟨-, hF, e⟩ | ⟨-, hF, hP, e⟩ | ⟨-, hF, hP, e⟩ := engineStep_cases s <;>
    simp [endState, *]

/-- A read or a NOP changes the replies alone (20_memory.md R55, 43_commands.md R183). -/
theorem runTurn_letsRun {turn : Turn} (turns : List Turn) (replies : List Reply) (h : turn.letsRun = true)
    (hengine : turn ≠ .engine) :
    ∃ replies', runTurn turn (s.withHost turns replies) = .next (s.withHost turns replies') := by
  have nop : memWrite 1 0 (s.withHost turns replies) = .next (s.withHost turns replies) :=
    (memWrite_decoded (decodeWord_encode .nop)).trans (exec_nop _)
  cases turn with
  | engine => exact absurd rfl hengine
  | read idx => exact ⟨_, rfl⟩
  | busRead addr size =>
    obtain ⟨reply, hrun⟩ := runTurn_read s turns replies (turn := .busRead addr size) h
    exact ⟨_, hrun⟩
  | write idx v =>
    obtain ⟨rfl, rfl⟩ : idx = 1 ∧ v = 0 := by simpa [Turn.letsRun] using h
    exact ⟨replies, nop⟩
  | busWrite addr size v =>
    obtain ⟨hidx, rfl⟩ : portIndexOf addr size = some 1 ∧ v = 0 := by simpa [Turn.letsRun] using h
    exact ⟨replies, (runTurn_busWrite _ hidx).trans nop⟩
  | reset => cases h

/-- The run of turns that let an operation go on, from any state without tracing. -/
theorem steps_letsRun (l rest : List Turn) (replies : List Reply) (hTEN : s.TEN = false)
    (hl : ∀ turn ∈ l, turn.letsRun = true) (hcount : stepsLeft s ≤ l.count .engine) :
    ∃ t, steps l.length (s.withHost (l ++ rest) replies) = .next t ∧ t.agenda = rest ∧
      t.STATE = endState s ∧ t.STEPCNT = s.STEPCNT + BitVec.ofNat 32 (stepsLeft s) := by
  induction l generalizing s replies with
  | nil =>
    have hb : s.STATE ≠ .busy := fun hb => by
      have := stepsLeft_pos hb
      simp at hcount
      omega
    refine ⟨_, rfl, rfl, ?_, ?_⟩
    · rw [endState, if_neg hb]
      rfl
    · rw [stepsLeft_of_ne_busy hb]
      exact (BitVec.add_zero _).symm
  | cons turn l ih =>
    have hl' : ∀ turn ∈ l, turn.letsRun = true := fun turn h => hl turn (List.mem_cons_of_mem _ h)
    by_cases hengine : turn = .engine
    · subst hengine
      rw [List.count_cons_self] at hcount
      by_cases hb : s.STATE = .busy
      · have enabled : stepEnabled s = true := stepEnabled_iff.mpr ⟨hb, by simp [hTEN]⟩
        have hrun := runTurn_engine (l ++ rest) replies enabled
        have hleft := stepsLeft_engineStep hb
        obtain ⟨t, ht, hagenda, hstate, hstepcnt⟩ :=
          ih (s := engineStep s) replies (by simpa using hTEN) hl' (by omega)
        refine ⟨t, (steps_cons hrun).trans ht, hagenda, hstate.trans (endState_engineStep hb), ?_⟩
        rw [hstepcnt, hleft, engineStep_STEPCNT, BitVec.ofNat_add, BitVec.add_assoc, BitVec.add_comm 1]
        rfl
      · have hrun := runTurn_engine_rests (l ++ rest) replies hb
        obtain ⟨t, ht, h⟩ := ih replies hTEN hl' (by rw [stepsLeft_of_ne_busy hb]; omega)
        exact ⟨t, (steps_cons hrun).trans ht, h⟩
    · rw [List.count_cons_of_ne hengine] at hcount
      obtain ⟨replies', hrun⟩ := runTurn_letsRun (l ++ rest) replies (hl turn List.mem_cons_self) hengine
      obtain ⟨t, ht, h⟩ := ih replies' hTEN hl' hcount
      exact ⟨t, (steps_cons hrun).trans ht, h⟩

/-- Settles O50: the run from a state in BUSY. -/
theorem operationInProgressEnds : Obligations.OperationInProgressEnds := by
  unfold Obligations.OperationInProgressEnds
  intro s l rest hb hTEN ha hl hcount
  have hs : s.withHost (l ++ rest) s.replies = s := by rw [← ha]; rfl
  obtain ⟨t, ht, hagenda, hstate, hstepcnt⟩ := steps_letsRun l rest s.replies hTEN hl hcount
  refine ⟨t, hs ▸ ht, hagenda, hstate.trans ?_, hstepcnt⟩
  rw [endState, if_pos hb]

end Sys2Proof.Machine
end

section
/-! Whole operations of the engine: the state after each step of a block, after a block, and after the run
of an operation with and without tracing (41_block_processor.md R132 to R138; 43_commands.md R201 to R206,
R212). -/

namespace Sys2Proof.Machine

open Sys2Proof

variable {s : State}

-- ## A block, step by step

/-- A block is about to start: its first step is to come (41_block_processor.md R133). -/
structure State.AtBlockStart (s : State) : Prop where
  busy : s.STATE = .busy
  W : s.W = s.H
  I : s.I = 0
  TEN : s.TEN = false

/-- `s`, at the start of a block, after `k` steps of the block without tracing. -/
def afterSteps (s : State) (k : Nat) : State :=
  { s with W := stepsUpTo s.K s.S s.H s.M k, I := BitVec.ofNat 6 k, STEPCNT := s.STEPCNT + BitVec.ofNat 32 k }

/-- `s`, at the start of a block, after the feed-forward of its step 63 (41_block_processor.md R134). -/
def afterBlock (s : State) : State :=
  { afterSteps s 64 with H := compressFn s.K s.S s.H s.M, BLKCNT := s.BLKCNT + 1 }

theorem afterSteps_zero (h : s.AtBlockStart) : afterSteps s 0 = s := by
  have hW : stepsUpTo s.K s.S s.H s.M 0 = s.W := h.W.symm
  have hI : BitVec.ofNat 6 0 = s.I := h.I.symm
  have hstepcnt : s.STEPCNT + BitVec.ofNat 32 0 = s.STEPCNT := BitVec.add_zero _
  rw [afterSteps, hW, hI, hstepcnt]

theorem advanceStep_afterSteps (hTEN : s.TEN = false) (k : Nat) :
    advanceStep (afterSteps s k) = { afterSteps s (k + 1) with I := BitVec.ofNat 6 k } := by
  have hcount : s.STEPCNT + BitVec.ofNat 32 k + 1#32 = s.STEPCNT + BitVec.ofNat 32 (k + 1) := by
    rw [BitVec.ofNat_add, BitVec.add_assoc]
  rw [advanceStep_eq]
  simp [afterSteps, hTEN, stepsUpTo, hcount]

/-- Steps 0 to 62 (43_commands.md R201). -/
theorem engineStep_afterSteps (hTEN : s.TEN = false) {k : Nat} (hk : k < 63) :
    engineStep (afterSteps s k) = afterSteps s (k + 1) := by
  have hI : (afterSteps s k).I.toNat < 63 := by
    rw [afterSteps, BitVec.toNat_ofNat, Nat.mod_eq_of_lt (by omega)]
    exact hk
  rw [engineStep_within hI, advanceStep_afterSteps hTEN]
  simp [afterSteps, BitVec.ofNat_add]

/-- Step 63 (43_commands.md R201). -/
theorem engineStep_afterSteps_last (hTEN : s.TEN = false) :
    engineStep (afterSteps s 63) = completeOperation (afterBlock s) := by
  rw [engineStep_last (by simp [afterSteps]), advanceStep_afterSteps hTEN]
  rfl

/-- The state before each step of a block. -/
theorem engineStep_iterate (h : s.AtBlockStart) {k : Nat} (hk : k ≤ 63) :
    engineStep^[k] s = afterSteps s k := by
  induction k with
  | zero => exact (afterSteps_zero h).symm
  | succ k ih =>
    rw [Function.iterate_succ_apply', ih (by omega), engineStep_afterSteps h.TEN (by omega)]

theorem engineStep_iterate_block (h : s.AtBlockStart) :
    engineStep^[64] s = completeOperation (afterBlock s) := by
  rw [Function.iterate_succ_apply', engineStep_iterate h le_rfl, engineStep_afterSteps_last h.TEN]

/-- The start of the second FINAL block (43_commands.md R203). -/
theorem atBlockStart_nextPadBlock (h : s.AtBlockStart) : (nextPadBlock (afterBlock s)).AtBlockStart :=
  ⟨h.busy, rfl, rfl, h.TEN⟩

-- ## The steps of an operation

/-- The steps of the operation that starts at `s`. -/
def operationLength (s : State) : Nat := if s.FIN && s.PEND2 then 128 else 64

/-- The start of the block that step `p` of the operation from `s` belongs to. -/
def blockStart (s : State) (p : Nat) : State := if p < 64 then s else nextPadBlock (afterBlock s)

theorem atBlockStart_blockStart (h : s.AtBlockStart) (p : Nat) : (blockStart s p).AtBlockStart := by
  unfold blockStart
  split
  · exact h
  · exact atBlockStart_nextPadBlock h

/-- The working registers after step `p` of the operation from `s`: a value of the step's own block. -/
def operationValue (s : State) (p : Nat) : Quad :=
  stepsUpTo (blockStart s p).K (blockStart s p).S (blockStart s p).H (blockStart s p).M (p % 64 + 1)

/-- The state before each step of an operation. -/
theorem engineStep_iterate_operation (h : s.AtBlockStart) {p : Nat} (hp : p < operationLength s) :
    engineStep^[p] s = afterSteps (blockStart s p) (p % 64) := by
  unfold operationLength at hp
  by_cases h64 : p < 64
  · rw [blockStart, if_pos h64, Nat.mod_eq_of_lt h64, engineStep_iterate h (by omega)]
  · split at hp
    · rename_i hlong
      obtain ⟨hF, hP⟩ : s.FIN = true ∧ s.PEND2 = true := by simpa using hlong
      obtain ⟨k, rfl⟩ : ∃ k, p = k + 64 := ⟨p - 64, by omega⟩
      rw [Function.iterate_add_apply, engineStep_iterate_block h,
        completeOperation_pad2 (s := afterBlock s) hF hP, blockStart, if_neg h64, Nat.add_mod_right,
        Nat.mod_eq_of_lt (by omega), engineStep_iterate (atBlockStart_nextPadBlock h) (by omega)]
    · exact absurd hp h64

/-- The engine is BUSY before each step of an operation. -/
theorem engineStep_iterate_busy (h : s.AtBlockStart) {p : Nat} (hp : p < operationLength s) :
    (engineStep^[p] s).STATE = .busy := by
  rw [engineStep_iterate_operation h hp]
  exact (atBlockStart_blockStart h p).busy

-- ## Runs without tracing

/-- Turns of the engine alone, each with its step enabled. -/
theorem steps_engine {n : Nat} (rest : List Turn) (replies : List Reply)
    (enabled : ∀ j, j < n → stepEnabled (engineStep^[j] s) = true) :
    steps n (s.withHost (List.replicate n .engine ++ rest) replies) =
      .next ((engineStep^[n] s).withHost rest replies) := by
  induction n generalizing s with
  | zero => rfl
  | succ n ih =>
    have hrun := runTurn_engine (s := s) (List.replicate n .engine ++ rest) replies
      (enabled 0 (Nat.succ_pos n))
    rw [List.replicate_succ, List.cons_append, steps_cons hrun, Function.iterate_succ_apply]
    exact ih fun j hj => enabled (j + 1) (Nat.succ_lt_succ hj)

/-- The run of an operation without tracing. -/
theorem steps_operation (h : s.AtBlockStart) (rest : List Turn) (replies : List Reply) :
    steps (operationLength s) (s.withHost (List.replicate (operationLength s) .engine ++ rest) replies) =
      .next ((engineStep^[operationLength s] s).withHost rest replies) := by
  refine steps_engine rest replies fun j hj => stepEnabled_iff.mpr ⟨engineStep_iterate_busy h hj, ?_⟩
  rw [engineStep_iterate_operation h hj]
  exact fun hheld => by simp [afterSteps, (atBlockStart_blockStart h j).TEN] at hheld

/-- Settles O45: BLOCK makes the start of a block, and without `FIN` the block is the operation. -/
theorem blockOperationCompressesTheBuffer : Obligations.BlockOperationCompressesTheBuffer := by
  unfold Obligations.BlockOperationCompressesTheBuffer
  intro s rest hready hTEN ha
  let started := performed .block s
  refine ⟨started, exec_block hready, ?_⟩
  have hstart : started.AtBlockStart := ⟨rfl, rfl, rfl, hTEN⟩
  have hrun := steps_operation hstart rest s.replies
  rw [show operationLength started = 64 from rfl, engineStep_iterate_block hstart,
    completeOperation_block (s := afterBlock started) rfl, ← ha] at hrun
  exact hrun

/-- The last engine step of a FINAL operation completes its last block (43_commands.md R204). -/
theorem engineStep_iterate_final (h : s.AtBlockStart) (hF : s.FIN = true) :
    engineStep^[operationLength s] s =
      completeFinal (afterBlock (if s.PEND2 then nextPadBlock (afterBlock s) else s)) := by
  cases hP : s.PEND2
  · have hlen : operationLength s = 64 := by simp [operationLength, hP]
    rw [hlen, engineStep_iterate_block h, completeOperation_final (s := afterBlock s) hF hP]
    rfl
  · have hlen : operationLength s = 64 + 64 := by simp [operationLength, hF, hP]
    rw [hlen, Function.iterate_add_apply, engineStep_iterate_block h,
      completeOperation_pad2 (s := afterBlock s) hF hP,
      engineStep_iterate_block (atBlockStart_nextPadBlock h),
      completeOperation_final (s := afterBlock (nextPadBlock (afterBlock s))) hF rfl]
    rfl

-- ## Runs with tracing

/-- The turns of one traced step: the engine's, and the TACK of its snapshot (43_commands.md R212). -/
def tracedTurns : List Turn := [.engine, .write 1 (encode .tack)]

/-- An engine step and the TACK of its snapshot. -/
def ackedStep (s : State) : State := { engineStep s with TV := false }

/-- But for the trace elements, an acknowledged step is a step without tracing. -/
theorem forgetTrace_ackedStep_iterate (s : State) (n : Nat) :
    (ackedStep^[n] s).forgetTrace = engineStep^[n] s.forgetTrace :=
  Function.Semiconj.iterate_right (ga := ackedStep) (fun u => (engineStep_forgetTrace u).symm) n s

theorem engineStep_traced (hTEN : s.TEN = true) :
    (engineStep s).TV = true ∧ (engineStep s).SNAP = stepFn s.K s.S s.I s.W s.M ∧
      (engineStep s).SNAP_IDX = s.STEPCNT + 1 := by
  obtain ⟨-, e⟩ | ⟨-, -, e⟩ | ⟨-, -, -, e⟩ | ⟨-, -, -, e⟩ := engineStep_cases s <;>
    simp [e, advanceStep_eq, hTEN]

theorem ackedStep_iterate_TEN (hTEN : s.TEN = true) (n : Nat) : (ackedStep^[n] s).TEN = true := by
  induction n generalizing s with
  | zero => exact hTEN
  | succ n ih => exact ih ((engineStep_TEN s).trans hTEN)

/-- The TACK after an engine step in trace mode lifts the hold (43_commands.md R188). -/
theorem runTurn_tack_engineStep (hb : s.STATE = .busy) (hTEN : s.TEN = true) (turns : List Turn)
    (replies : List Reply) :
    runTurn (.write 1 (encode .tack)) ((engineStep s).withHost turns replies) =
      .next ((ackedStep s).withHost turns replies) := by
  obtain ⟨hTV, -, -⟩ := engineStep_traced hTEN
  have he := engineStep_STATE_ne_error hb
  exact (memWrite_decoded (decodeWord_encode .tack)).trans
    (exec_tack (s := (engineStep s).withHost turns replies) he hTV)

/-- A run in trace mode up to the engine's turn `p + 1`, each step before it acknowledged. -/
theorem steps_traced {p : Nat} (rest : List Turn) (replies : List Reply) (hTEN : s.TEN = true)
    (hTV : s.TV = false) (hbusy : ∀ j, j ≤ p → (engineStep^[j] s.forgetTrace).STATE = .busy) :
    ∃ turns, steps (2 * p + 1) (s.withHost ((List.replicate (p + 1) tracedTurns).flatten ++ rest) replies) =
      .next ((engineStep (ackedStep^[p] s)).withHost turns replies) := by
  have hb : s.STATE = .busy := hbusy 0 (Nat.zero_le p)
  have enabled : stepEnabled s = true := stepEnabled_iff.mpr ⟨hb, by simp [hTV]⟩
  induction p generalizing s with
  | zero => exact ⟨_, steps_cons (runTurn_engine _ replies enabled)⟩
  | succ p ih =>
    have hbusy' (j : Nat) (hj : j ≤ p) : (engineStep^[j] (ackedStep s).forgetTrace).STATE = .busy := by
      rw [show (ackedStep s).forgetTrace = engineStep s.forgetTrace from forgetTrace_ackedStep_iterate s 1]
      exact hbusy (j + 1) (Nat.succ_le_succ hj)
    have hb' : (ackedStep s).STATE = .busy := hbusy' 0 (Nat.zero_le p)
    obtain ⟨turns, hrun⟩ := ih (s := ackedStep s) ((engineStep_TEN s).trans hTEN) rfl hbusy' hb'
      (stepEnabled_iff.mpr ⟨hb', nofun⟩)
    refine ⟨turns, ?_⟩
    rw [List.replicate_succ, List.flatten_cons, List.append_assoc, tracedTurns, List.cons_append,
      List.singleton_append, show 2 * (p + 1) + 1 = 2 * p + 1 + 1 + 1 from rfl,
      steps_cons (runTurn_engine _ replies enabled),
      steps_cons (runTurn_tack_engineStep hb hTEN _ replies)]
    exact hrun

theorem engineStep_iterate_STEPCNT (s : State) (n : Nat) :
    (engineStep^[n] s).STEPCNT = s.STEPCNT + BitVec.ofNat 32 n := by
  induction n with
  | zero => exact (BitVec.add_zero _).symm
  | succ n ih =>
    rw [Function.iterate_succ_apply', engineStep_STEPCNT, ih, BitVec.ofNat_add, BitVec.add_assoc]
    rfl

/-- An operation in trace mode up to the engine's turn `p + 1`: the snapshot held is the value after the
step of that turn, and but for the trace elements the state is that of the operation without tracing. -/
theorem traced_operation {p : Nat} (h : s.forgetTrace.AtBlockStart) (hTEN : s.TEN = true) (hTV : s.TV = false)
    (hp : p < operationLength s) (rest : List Turn) (replies : List Reply) :
    ∃ t, steps (2 * p + 1)
        (s.withHost ((List.replicate (operationLength s) tracedTurns).flatten ++ rest) replies) = .next t ∧
      t.SNAP = operationValue s.forgetTrace p ∧
      t.SNAP_IDX = s.STEPCNT + BitVec.ofNat 32 (p + 1) ∧ t.TV = true ∧
      t.forgetTrace.architectural = (engineStep^[p + 1] s.forgetTrace).architectural := by
  obtain ⟨m, hm⟩ : ∃ m, operationLength s = p + 1 + m := ⟨operationLength s - (p + 1), by omega⟩
  obtain ⟨turns, hrun⟩ := steps_traced ((List.replicate m tracedTurns).flatten ++ rest) replies hTEN hTV
    fun j hj => engineStep_iterate_busy h (hj.trans_lt hp)
  obtain ⟨htv, hsnap, hidx⟩ := engineStep_traced (ackedStep_iterate_TEN hTEN p)
  have hu := forgetTrace_ackedStep_iterate s p
  generalize ackedStep^[p] s = u at *
  have hafter : u.forgetTrace = afterSteps (blockStart s.forgetTrace p) (p % 64) :=
    hu.trans (engineStep_iterate_operation h hp)
  refine ⟨(engineStep u).withHost turns replies, ?_, hsnap.trans ?_, hidx.trans ?_, htv, ?_⟩
  · rw [hm, List.replicate_add, List.flatten_append, List.append_assoc]
    exact hrun
  · change stepFn u.forgetTrace.K u.forgetTrace.S u.forgetTrace.I u.forgetTrace.W u.forgetTrace.M = _
    rw [hafter]
    rfl
  · change u.forgetTrace.STEPCNT + 1 = _
    rw [hu, engineStep_iterate_STEPCNT, BitVec.ofNat_add, ← BitVec.add_assoc]
    rfl
  · have hstep : (engineStep u).forgetTrace = engineStep^[p + 1] s.forgetTrace := by
      rw [← engineStep_forgetTrace, hu, ← Function.iterate_succ_apply' engineStep]
    change (engineStep u).forgetTrace.architectural = _
    rw [hstep]

/-- Settles O49: the operation is one block, and before its last step only `W`, `I` and the step count
have changed. -/
theorem traceModeDeliversEveryStepOfBlock : Obligations.TraceModeDeliversEveryStepOfBlock := by
  unfold Obligations.TraceModeDeliversEveryStepOfBlock
  intro s rest p hready hTEN hTV hp ha
  let started := performed .block s
  have hstart : started.forgetTrace.AtBlockStart := ⟨rfl, rfl, rfl, rfl⟩
  obtain ⟨t, hrun, hsnap, hidx, htv, hview⟩ := traced_operation hstart hTEN hTV hp rest s.replies
  have hstate := congrArg State.STATE hview
  have hH := congrArg State.H hview
  rw [operationValue, blockStart, if_pos hp, Nat.mod_eq_of_lt hp] at hsnap
  refine ⟨started, t, exec_block hready, ?_, hsnap, hidx, htv, ?_⟩
  · have hs : started.withHost s.agenda s.replies = started := rfl
    rw [← hs, ha]
    exact hrun
  · by_cases h63 : p = 63
    · subst h63
      rw [engineStep_iterate_block hstart,
        completeOperation_block (s := afterBlock started.forgetTrace) rfl] at hstate hH
      exact ⟨hstate, hH⟩
    · rw [engineStep_iterate hstart (by omega)] at hstate hH
      rw [if_neg h63, if_neg h63]
      exact ⟨hstate, hH⟩

theorem operationLength_final (n : BitVec 6) (s : State) :
    operationLength (performed (.final n) s) = if 56 ≤ n.toNat then 128 else 64 := by
  simp [operationLength, performed, not_fitsOneBlock]

theorem operationLength_eq (s : State) : operationLength s = 64 ∨ operationLength s = 128 := by
  unfold operationLength
  split
  · exact .inr rfl
  · exact .inl rfl

/-- `H` changes with the last step of each block of a FINAL operation only. -/
theorem engineStep_iterate_final_H (h : s.AtBlockStart) (hF : s.FIN = true) {p : Nat}
    (hp : p < operationLength s) :
    (engineStep^[p + 1] s).H =
      if p < 63 then s.H else if p < 127 then compressFn s.K s.S s.H s.M
      else compressFn s.K s.S (compressFn s.K s.S s.H s.M) (secondPadBlock s.BITLEN) := by
  by_cases hlast : p + 1 = operationLength s
  · rw [hlast, engineStep_iterate_final h hF]
    cases hP : s.PEND2
    · obtain rfl : p = 63 := by simpa [operationLength, hP] using hlast
      rfl
    · obtain rfl : p = 127 := by simpa [operationLength, hF, hP] using hlast
      rfl
  · rw [engineStep_iterate_operation h (by omega)]
    have hlen := operationLength_eq s
    by_cases h63 : p < 63
    · rw [blockStart, if_pos (by omega), if_pos h63]
      rfl
    · rw [blockStart, if_neg (by omega), if_neg h63, if_pos (by omega)]
      rfl

/-- Settles O56: before its last step the operation is BUSY with the `H` of the block the next step belongs
to, and its last step completes it. -/
theorem traceModeDeliversEveryStepOfFinal : Obligations.TraceModeDeliversEveryStepOfFinal := by
  unfold Obligations.TraceModeDeliversEveryStepOfFinal
  intro n s rest p count bits M₁ H₁ M₂ hready hTEN hTV hp ha
  let started := performed (.final n) s
  have hstart : started.forgetTrace.AtBlockStart := ⟨rfl, rfl, rfl, rfl⟩
  have hlen : operationLength started = count := operationLength_final n s
  have hbits : started.BITLEN = bits := congrArg (s.BITLEN + ·) (tailBits_eq_ofNat n)
  have hM : started.M = M₁ := congrArg (paddedTail s.M n) hbits
  clear_value M₁ bits
  subst hM hbits
  obtain ⟨t, hrun, hsnap, hidx, htv, hview⟩ := traced_operation hstart hTEN hTV (hlen ▸ hp) rest s.replies
  have hH := (congrArg State.H hview).trans (engineStep_iterate_final_H hstart rfl (hlen ▸ hp))
  refine ⟨started, t, exec_final n hready, ?_, ?_, hidx, htv, hH, fun hlt => ?_, fun hlast => ?_⟩
  · have hs : started.withHost s.agenda s.replies = started := rfl
    rw [← hs, ha, ← hlen]
    exact hrun
  · by_cases h64 : p < 64
    · rw [operationValue, blockStart, if_pos h64, Nat.mod_eq_of_lt h64] at hsnap
      rw [if_pos h64]
      exact hsnap
    · have hmod : p % 64 = p - 64 := by
        have := operationLength_eq started
        omega
      rw [operationValue, blockStart, if_neg h64, hmod] at hsnap
      rw [if_neg h64]
      exact hsnap
  · exact (congrArg State.STATE hview).trans (engineStep_iterate_busy hstart (hlen ▸ hlt))
  · have hend := engineStep_iterate_final hstart rfl
    rw [show operationLength started.forgetTrace = p + 1 from hlen.trans hlast.symm] at hend
    rw [hend] at hview
    have hH := (congrArg State.H hview).symm
    exact ⟨congrArg State.STATE hview, congrArg State.DV hview,
      (congrArg State.DIG hview).trans (congrArg digWords hH),
      (congrArg State.HEX hview).trans (congrArg hexWords hH)⟩

end Sys2Proof.Machine
end

section
/-! The blocks of a padded message are the blocks the engine compresses, and so FINAL ends with the digest of
the whole message (40_padder.md R104 to R109; 43_commands.md R210). -/

namespace Sys2Proof.Machine

open Sys2Proof

variable {message : List Byte} {M : Vector Word 16} {j : Nat}

-- ## The bytes of the padded message, part by part (40_padder.md R100)

theorem getD_pad_message (hj : j < message.length) : (pad message).getD j 0 = message.getD j 0 := by
  rw [pad_eq, List.append_assoc, List.append_assoc, List.getD_append _ _ _ _ hj]

theorem getD_pad_mark (message : List Byte) : (pad message).getD message.length 0 = 0x80#8 := by
  rw [pad_eq, List.append_assoc, List.append_assoc, List.getD_append_right _ _ _ _ le_rfl, Nat.sub_self]
  rfl

theorem getD_pad_zero (hj : message.length < j) (hj' : j + 8 < (pad message).length) :
    (pad message).getD j 0 = 0x00#8 := by
  have hfront : (message ++ [0x80#8]).length = message.length + 1 := by simp
  rw [length_pad] at hj'
  rw [pad_eq, List.append_assoc, List.getD_append_right _ _ _ _ (by omega), hfront,
    List.getD_append _ _ _ _ (by rw [List.length_replicate]; omega), List.getD_replicate _ (by omega)]

theorem getD_pad_length (hj : j < 8) :
    (pad message).getD ((pad message).length - 8 + j) 0 =
      byteOf64 (BitVec.ofNat 64 (8 * message.length)) j := by
  have hfront : (message ++ [0x80#8] ++ List.replicate (padZeros message.length) 0x00#8).length =
      (pad message).length - 8 := by
    simp only [length_pad, List.length_append, List.length_singleton, List.length_replicate]
    omega
  rw [← hfront, pad_eq, List.getD_append_right _ _ _ _ (Nat.le_add_right _ _), Nat.add_sub_cancel_left]
  simp [le64, hj]

-- ## The blocks of the padded message

/-- A tail of 56 bytes or more makes two padding blocks (40_padder.md R105). -/
theorem length_pad_eq (message : List Byte) :
    (pad message).length =
      64 * (message.length / 64 + if 56 ≤ message.length % 64 then 2 else 1) := by
  rw [length_pad, padZeros]
  split <;> omega

theorem blockByte_messageBlock (P : List Byte) (b : Nat) (hj : j < 64) :
    blockByte (messageBlock P b) j = P.getD (64 * b + j) 0 :=
  blockByte_blockOfBytes _ hj

/-- The full chunks are blocks of the padded message unchanged (40_padder.md R109). -/
theorem messageBlock_pad {b : Nat} (hb : b < message.length / 64) :
    messageBlock (pad message) b = messageBlock message b :=
  blockOfBytes_congr fun j hj => getD_pad_message (by omega)

theorem toNat_tail (message : List Byte) :
    (BitVec.ofNat 6 (message.length % 64)).toNat = message.length % 64 := by
  rw [BitVec.toNat_ofNat]
  exact Nat.mod_mod _ _

/-- The buffer that FINAL pads is the next block (40_padder.md R109). -/
theorem messageBlock_pad_tail
    (hM : ∀ j, j < message.length % 64 →
      blockByte M j = message.getD (64 * (message.length / 64) + j) 0) :
    messageBlock (pad message) (message.length / 64) =
      paddedTail M (BitVec.ofNat 6 (message.length % 64)) (BitVec.ofNat 64 (8 * message.length)) := by
  have hlen := length_pad_eq message
  refine block_ext fun j hj => ?_
  rw [blockByte_messageBlock _ _ hj, blockByte_paddedTail _ _ _ hj, toNat_tail]
  split_ifs with htail hmark hfield
  · rw [hM j htail, getD_pad_message (by omega)]
  · rw [show 64 * (message.length / 64) + j = message.length by omega, getD_pad_mark]
  · rw [if_neg (by omega)] at hlen
    rw [show 64 * (message.length / 64) + j = (pad message).length - 8 + (j - 56) by omega,
      getD_pad_length (by omega)]
  · exact getD_pad_zero (by omega) (by split at hlen <;> omega)

/-- The second padding block is the block after that (40_padder.md R109). -/
theorem messageBlock_pad_second (h : 56 ≤ message.length % 64) :
    messageBlock (pad message) (message.length / 64 + 1) =
      secondPadBlock (BitVec.ofNat 64 (8 * message.length)) := by
  have hlen := length_pad_eq message
  rw [if_pos h] at hlen
  refine block_ext fun j hj => ?_
  rw [blockByte_messageBlock _ _ hj, blockByte_secondPadBlock _ hj]
  split_ifs
  · exact getD_pad_zero (by omega) (by omega)
  · rw [show 64 * (message.length / 64 + 1) + j = (pad message).length - 8 + (j - 56) by omega,
      getD_pad_length (by omega)]

/-- Settles O46: block by block, and the number of blocks from the length. -/
theorem engineBlocksAreTheBlocksOfPad : Obligations.EngineBlocksAreTheBlocksOfPad := by
  unfold Obligations.EngineBlocksAreTheBlocksOfPad
  intro message M hM q n bits
  refine ⟨fun b => messageBlock_pad, messageBlock_pad_tail hM, messageBlock_pad_second, ?_⟩
  rw [length_pad_eq, Nat.mul_div_cancel_left _ (by decide)]
  split <;> rfl

-- ## The digest

theorem chainingValue_pad {b : Nat} (hb : b ≤ message.length / 64) :
    chainingValue (pad message) b = chainingValue message b := by
  induction b with
  | zero => rfl
  | succ b ih => rw [chainingValue, chainingValue, ih (by omega), messageBlock_pad hb]

/-- The document's `process` on the padded message (41_block_processor.md R136). -/
theorem process_pad (message : List Byte) :
    process (pad message) false = some
      (chainingValue (pad message) (message.length / 64 + if 56 ≤ message.length % 64 then 2 else 1),
        none) := by
  rw [process, length_pad_eq, if_pos (Nat.mul_mod_right _ _), Nat.mul_div_cancel_left _ (by decide)]
  rfl

/-- The HEX registers hold the digest string, four characters to a word (42_digest_encoder.md R164). -/
theorem hexString_eq_hexWords (h : Quad) :
    hexString h = (List.range 32).map fun c => byteOf (wordAt (hexWords h) (c / 4)) (c % 4) := by
  refine List.map_congr_left fun c hc => ?_
  rw [List.mem_range] at hc
  rw [byteOf_hexWords h (by omega) (by omega), Nat.div_add_mod]

/-- The counted bits of the full chunks and of the tail are those of the message (10_state.md R38). -/
theorem bits_of_message (L : Nat) :
    BitVec.ofNat 64 (512 * (L / 64)) + tailBits (BitVec.ofNat 6 (L % 64)) = BitVec.ofNat 64 (8 * L) := by
  rw [tailBits_eq_ofNat, ← BitVec.ofNat_add, BitVec.toNat_ofNat, Nat.mod_mod]
  congr 1
  omega

/-- What a FINAL operation without tracing leaves in the registers (43_commands.md R203, R204). -/
theorem engineStep_iterate_final_fields {s : State} (h : s.AtBlockStart) (hF : s.FIN = true) :
    let t := engineStep^[operationLength s] s
    t.STATE = .done ∧ t.DV = true ∧ t.FIN = false ∧ t.PEND2 = false ∧ t.I = 0 ∧ t.BITLEN = s.BITLEN ∧
      t.BLKCNT = s.BLKCNT + BitVec.ofNat 64 (operationLength s / 64) ∧ t.HEX = hexWords t.H ∧
      t.H = if s.PEND2 then compressFn s.K s.S (compressFn s.K s.S s.H s.M) (secondPadBlock s.BITLEN)
        else compressFn s.K s.S s.H s.M := by
  intro t
  have ht : t = completeFinal (afterBlock (if s.PEND2 then nextPadBlock (afterBlock s) else s)) :=
    engineStep_iterate_final h hF
  cases hP : s.PEND2
  · rw [ht, hP]
    exact ⟨rfl, rfl, rfl, hP, rfl, rfl, by simp [operationLength, hP, afterBlock, afterSteps], rfl, rfl⟩
  · rw [ht, hP]
    refine ⟨rfl, rfl, rfl, rfl, rfl, rfl, ?_, rfl, rfl⟩
    simp [operationLength, hF, hP, afterBlock, afterSteps, BitVec.add_assoc]

/-- The padded tail, and where it has 56 bytes or more the second padding block, take the chaining value of
the full chunks to that of the padded message. -/
theorem chainingValue_pad_eq
    (hM : ∀ j, j < message.length % 64 →
      blockByte M j = message.getD (64 * (message.length / 64) + j) 0) :
    chainingValue (pad message) (message.length / 64 + if 56 ≤ message.length % 64 then 2 else 1) =
      let bits := BitVec.ofNat 64 (8 * message.length)
      let h := compressFn kRom sRom (chainingValue message (message.length / 64))
        (paddedTail M (BitVec.ofNat 6 (message.length % 64)) bits)
      if 56 ≤ message.length % 64 then compressFn kRom sRom h (secondPadBlock bits) else h := by
  have htail : chainingValue (pad message) (message.length / 64 + 1) =
      compressFn kRom sRom (chainingValue message (message.length / 64))
        (paddedTail M (BitVec.ofNat 6 (message.length % 64)) (BitVec.ofNat 64 (8 * message.length))) := by
    rw [chainingValue, chainingValue_pad le_rfl, messageBlock_pad_tail hM]
  split_ifs with h
  · rw [chainingValue, htail, messageBlock_pad_second h]
  · exact htail

/-- Settles O48: the operation compresses the last blocks of the padded message onto the chaining value of
its full chunks. -/
theorem finalOperationYieldsTheMessageDigest : Obligations.FinalOperationYieldsTheMessageDigest := by
  unfold Obligations.FinalOperationYieldsTheMessageDigest
  intro message s rest q tail count hready hTEN hK hS hH hB hM ha
  let started := performed (.final (BitVec.ofNat 6 tail)) s
  have hstart : started.AtBlockStart := ⟨rfl, rfl, rfl, hTEN⟩
  have hlen : operationLength started = count := by
    rw [operationLength_final, toNat_tail]
  have hbits : started.BITLEN = BitVec.ofNat 64 (8 * message.length) := by
    rw [← bits_of_message, ← hB]
    rfl
  have hblock : started.M = paddedTail s.M (BitVec.ofNat 6 tail) (BitVec.ofNat 64 (8 * message.length)) :=
    congrArg (paddedTail s.M _) hbits
  have hpad : started.PEND2 = decide (56 ≤ tail) := (not_fitsOneBlock _).trans (by rw [toNat_tail])
  have hrun := steps_operation hstart rest s.replies
  have hfields := engineStep_iterate_final_fields hstart rfl
  rw [hlen] at hrun hfields
  obtain ⟨hstate, hdv, hfin, hpend, hI, hbitlen, hblkcnt, hhex, hcompressed⟩ := hfields
  have hstepcnt := engineStep_iterate_STEPCNT started count
  have hdigest : (engineStep^[count] started).H =
      chainingValue (pad message) (q + if 56 ≤ tail then 2 else 1) := by
    rw [hcompressed, hpad, hblock, hbits, show started.K = kRom from hK, show started.S = sRom from hS,
      show started.H = _ from hH, chainingValue_pad_eq hM]
    simp only [decide_eq_true_eq]
    rfl
  refine ⟨started, (engineStep^[count] started).withHost rest s.replies, exec_final _ hready, ?_, hstate, hdv,
    hfin, hpend, hI, rfl, hbitlen.trans hbits, hblkcnt, hstepcnt, ?_, ?_⟩
  · rw [← ha] at hrun
    exact hrun
  · rw [process_pad, ← hdigest]
    rfl
  · rw [digestHex, process_pad, Option.map_some, ← hdigest, hexString_eq_hexWords, ← hhex]
    rfl

end Sys2Proof.Machine
end

section
/-! The constant ROM and the sine function: `cos 1 + i sin 1` to 48 bits, its powers as Gaussian integers,
and the bounds they give for `sin 1` to `sin 64` (41_block_processor.md R122). -/

namespace Sys2Proof.Machine

open Sys2Proof

-- ## `exp i` to 48 bits

/-- `2^48 (cos 1 + i sin 1)`, both parts cut to integers. -/
def scaledExpI : GaussianInt := ⟨152081578960948, 236853025851495⟩

/-- `cos 1 + i sin 1` to 48 bits. -/
noncomputable def approxExpI : ℂ := (scaledExpI : ℂ) / 2 ^ 48

/-- The Taylor polynomial of `exp` of degree 16 at `i`. -/
noncomputable def taylorExpI : ℂ := ∑ m ∈ Finset.range 17, Complex.I ^ m / (m.factorial : ℂ)

theorem norm_exp_I_sub_taylor : ‖Complex.exp Complex.I - taylorExpI‖ ≤ 1 / 2 ^ 48 := by
  have h := Complex.exp_bound (x := Complex.I) (n := 17) (by simp) (by decide)
  refine h.trans ?_
  simp only [Complex.norm_I, Nat.factorial]
  norm_num

theorem I_pow_add_four (m : ℕ) : Complex.I ^ (m + 4) = Complex.I ^ m := by
  rw [pow_add, Complex.I_pow_four, mul_one]

/-- The polynomial in numbers: the partial sums of the series of `cos 1` and `sin 1`. -/
theorem taylorExpI_eq :
    taylorExpI = ((11304631621681 / 20922789888000 : ℝ) : ℂ) +
      ((1100370038249 / 1307674368000 : ℝ) : ℂ) * Complex.I := by
  simp only [taylorExpI, Finset.sum_range_succ, Finset.sum_range_zero, I_pow_add_four, pow_zero, pow_one,
    Complex.I_sq, Complex.I_pow_three, Nat.factorial]
  push_cast
  ring

theorem approxExpI_eq :
    approxExpI = ((152081578960948 / 2 ^ 48 : ℝ) : ℂ) + ((236853025851495 / 2 ^ 48 : ℝ) : ℂ) * Complex.I := by
  rw [approxExpI, GaussianInt.toComplex_def, scaledExpI]
  push_cast
  ring

/-- The polynomial and the 48 bits differ by less than a unit of the last place in either part. -/
theorem norm_taylor_sub_approx : ‖taylorExpI - approxExpI‖ ≤ 2 / 2 ^ 48 := by
  rw [taylorExpI_eq, approxExpI_eq]
  refine (Complex.norm_le_abs_re_add_abs_im _).trans ?_
  simp only [Complex.sub_re, Complex.sub_im, Complex.add_re, Complex.add_im, Complex.re_ofReal_mul,
    Complex.im_ofReal_mul, Complex.ofReal_re, Complex.ofReal_im, Complex.I_re, Complex.I_im]
  norm_num [abs_of_pos]

theorem norm_exp_I_sub_approx : ‖Complex.exp Complex.I - approxExpI‖ ≤ 1 / 2 ^ 46 :=
  calc ‖Complex.exp Complex.I - approxExpI‖
      ≤ ‖Complex.exp Complex.I - taylorExpI‖ + ‖taylorExpI - approxExpI‖ :=
        norm_sub_le_norm_sub_add_norm_sub ..
    _ ≤ 1 / 2 ^ 48 + 2 / 2 ^ 48 := add_le_add norm_exp_I_sub_taylor norm_taylor_sub_approx
    _ ≤ 1 / 2 ^ 46 := by norm_num

theorem norm_exp_I : ‖Complex.exp Complex.I‖ = 1 := by
  simpa using Complex.norm_exp_ofReal_mul_I 1

/-- Both parts are cut towards 0, so the approximation stays in the unit disc. -/
theorem norm_approxExpI_le : ‖approxExpI‖ ≤ 1 := by
  have hsq : Complex.normSq (scaledExpI : ℂ) ≤ (2 ^ 48) ^ 2 := by
    rw [← GaussianInt.intCast_real_norm]
    exact_mod_cast (by decide : scaledExpI.norm ≤ (2 ^ 48) ^ 2)
  rw [approxExpI, norm_div, norm_pow, Complex.norm_ofNat, div_le_one (by positivity)]
  rw [← Complex.sq_norm] at hsq
  exact le_of_sq_le_sq hsq (by positivity)

-- ## The powers

/-- In the unit disc the error of a power grows linearly. -/
theorem norm_pow_sub_pow_le {z w : ℂ} (hz : ‖z‖ ≤ 1) (hw : ‖w‖ ≤ 1) (n : ℕ) :
    ‖z ^ n - w ^ n‖ ≤ n * ‖z - w‖ := by
  induction n with
  | zero => simp
  | succ n ih =>
    have hsplit : z ^ (n + 1) - w ^ (n + 1) = (z ^ n - w ^ n) * z + w ^ n * (z - w) := by ring
    have hpow : ‖w ^ n‖ ≤ 1 := by
      rw [norm_pow]
      exact pow_le_one₀ (norm_nonneg w) hw
    calc ‖z ^ (n + 1) - w ^ (n + 1)‖
        ≤ ‖z ^ n - w ^ n‖ * ‖z‖ + ‖w ^ n‖ * ‖z - w‖ := by
          rw [hsplit, ← norm_mul, ← norm_mul]
          exact norm_add_le _ _
      _ ≤ n * ‖z - w‖ * 1 + 1 * ‖z - w‖ := by gcongr
      _ = (n + 1 : ℕ) * ‖z - w‖ := by push_cast; ring

/-- De Moivre: the powers of `exp i` have the sines of the natural numbers. -/
theorem exp_I_pow_im (n : ℕ) : (Complex.exp Complex.I ^ n).im = Real.sin n := by
  rw [← Complex.exp_nat_mul, ← Complex.ofReal_natCast, Complex.exp_ofReal_mul_I_im]

theorem approxExpI_pow_im (n : ℕ) : (approxExpI ^ n).im = ((scaledExpI ^ n).im : ℝ) / (2 ^ 48) ^ n := by
  have hscale : ((2 : ℂ) ^ 48) ^ n = (((2 ^ 48) ^ n : ℝ) : ℂ) := by push_cast; rfl
  rw [approxExpI, div_pow, ← map_pow, hscale, Complex.div_ofReal_im, GaussianInt.intCast_im]

/-- `sin n` from the Gaussian integers. -/
theorem abs_abs_sin_sub_le {n : ℕ} (hn : n ≤ 64) :
    |(|Real.sin n| - ((scaledExpI ^ n).im.natAbs : ℝ) / (2 ^ 48) ^ n)| ≤ 1 / 2 ^ 40 := by
  have herror : |Real.sin n - ((scaledExpI ^ n).im : ℝ) / (2 ^ 48) ^ n| ≤ 1 / 2 ^ 40 :=
    calc |Real.sin n - ((scaledExpI ^ n).im : ℝ) / (2 ^ 48) ^ n|
        = |(Complex.exp Complex.I ^ n - approxExpI ^ n).im| := by
          rw [Complex.sub_im, exp_I_pow_im, approxExpI_pow_im]
      _ ≤ ‖Complex.exp Complex.I ^ n - approxExpI ^ n‖ := Complex.abs_im_le_norm _
      _ ≤ n * ‖Complex.exp Complex.I - approxExpI‖ :=
          norm_pow_sub_pow_le norm_exp_I.le norm_approxExpI_le n
      _ ≤ 64 * (1 / 2 ^ 46) := by
          gcongr
          · exact_mod_cast hn
          · exact norm_exp_I_sub_approx
      _ = 1 / 2 ^ 40 := by norm_num
  have habs : |((scaledExpI ^ n).im : ℝ) / (2 ^ 48) ^ n| = ((scaledExpI ^ n).im.natAbs : ℝ) / (2 ^ 48) ^ n := by
    rw [abs_div, abs_of_pos (by positivity : (0 : ℝ) < (2 ^ 48) ^ n), Nat.cast_natAbs, Int.cast_abs]
  rw [← habs]
  exact (abs_abs_sub_abs_le _ _).trans herror

-- ## The table

/-- Every entry against the Gaussian integers, with the error of `sin` to spare on both sides: a finite check
of 64 entries. -/
theorem kRom_bounds : ∀ i < 64,
    (wordAt kRom i).toNat * 2 ^ 8 * (2 ^ 48) ^ (i + 1) + (2 ^ 48) ^ (i + 1) ≤
        (scaledExpI ^ (i + 1)).im.natAbs * 2 ^ 40 ∧
      (scaledExpI ^ (i + 1)).im.natAbs * 2 ^ 40 + (2 ^ 48) ^ (i + 1) <
        ((wordAt kRom i).toNat + 1) * 2 ^ 8 * (2 ^ 48) ^ (i + 1) := by
  decide

/-- The same bounds after division by the scale. -/
theorem kRom_bounds_real {i : ℕ} (hi : i < 64) :
    ((wordAt kRom i).toNat : ℝ) * 2 ^ 8 + 1 ≤
        ((scaledExpI ^ (i + 1)).im.natAbs : ℝ) / (2 ^ 48) ^ (i + 1) * 2 ^ 40 ∧
      ((scaledExpI ^ (i + 1)).im.natAbs : ℝ) / (2 ^ 48) ^ (i + 1) * 2 ^ 40 + 1 <
        (((wordAt kRom i).toNat : ℝ) + 1) * 2 ^ 8 := by
  obtain ⟨hlow, hhigh⟩ := kRom_bounds i hi
  have hscale : (0 : ℝ) < (2 ^ 48) ^ (i + 1) := by positivity
  rw [div_mul_eq_mul_div, le_div_iff₀ hscale, div_add_one hscale.ne', div_lt_iff₀ hscale, add_one_mul]
  exact ⟨mod_cast hlow, mod_cast hhigh⟩

/-- Settles O7: the bounds of the entry and the error of `sin` together place the product between the entry
and the next integer. -/
theorem constantTableIsTheSineFormula : Obligations.ConstantTableIsTheSineFormula := by
  unfold Obligations.ConstantTableIsTheSineFormula
  intro i hi
  obtain ⟨hlow, hhigh⟩ := kRom_bounds_real hi
  obtain ⟨hleft, hright⟩ := abs_le.mp (abs_abs_sin_sub_le (n := i + 1) hi)
  rw [Nat.cast_add_one] at hleft hright
  rw [eq_comm, Int.floor_eq_iff, Int.cast_natCast]
  constructor
  · linarith
  · linarith

end Sys2Proof.Machine
end
